-- ==== Sys2Proof/Word.lean ====
section
/-! DEFINITION. The word types of the block: 32-bit queue words, 16-bit halves, user nibbles, bytes of the operation port. -/

namespace Sys2Proof

/-- One 32-bit word of a queue (20_memory.md R61), bit 0 least significant (00_scope.md R8). -/
abbrev Word := BitVec 32

/-- One 16-bit half of a word: the width of the sync pattern (20_memory.md R68). -/
abbrev Half := BitVec 16

/-- One byte of an operation as it stands at the operation port, and one character of an ASCII timecode (R106). -/
abbrev Byte := BitVec 8

/-- One user-bit nibble (10_state.md R21, R28), also one BCD units digit (30_encoding.md R95). -/
abbrev Nibble := BitVec 4

/-- A word from its low half, on the line first, and its high half (20_memory.md R68). -/
def wordOfHalves (lo hi : Half) : Word := hi ++ lo

/-- `W[15:0]`. -/
def lowHalf (w : Word) : Half := w.extractLsb' 0 16

/-- `W[31:16]`. -/
def highHalf (w : Word) : Half := w.extractLsb' 16 16

end Sys2Proof
end

