-- ==== Sys2Proof/Config.lean ====
section
/-! DEFINITION. What an implementation fixes (00_scope.md R7): the six rates, the decided constants, the open
parameters as one record of plain data with the spec's defaults, and the free values, which have no body. -/

namespace Sys2Proof

/-- The six frame rates `FPS_SET` (10_state.md R24), in the order of their codes 0 to 5. -/
inductive Rate where
  | r30 | r2997 | r25 | r2498 | r24 | r2398
  deriving DecidableEq, Repr

/-- The dither direction `CAL_DIR` (43_clock_adjust.md R214): `up` is +1, `down` is -1. -/
inductive Direction where
  | up | down
  deriving DecidableEq, Repr

/-- The open parameter `on_duration` (43_clock_adjust.md R217). The rule allows exactly the functions within
1 ms of `P * f`, that is, `P * f` rounded down or up at each argument: `floor` is the spec's default, and `platform`
stands for any other choice, made argument by argument by `Config.onRoundsUp`. -/
inductive OnRounding where
  | floor | platform
  deriving DecidableEq, Repr

/-- `DIV0(fps)`: one nominal divider per rate (43_clock_adjust.md R211). -/
structure DividerTable where
  at30   : Int
  at2997 : Int
  at25   : Int
  at2498 : Int
  at24   : Int
  at2398 : Int
  deriving DecidableEq, Repr

/-- The parameters of 00_scope.md R7 that the spec leaves OPEN.
They are the step's parameters and not state (10_state.md R44); no step changes them. -/
structure Params where
  /-- `FAM25_INCLUDES_2498` (30_encoding.md R99) -/
  fam25Includes2498 : Bool
  /-- `SYNCPH_RESET` (10_state.md R35) -/
  syncphReset       : Bool
  /-- `RXQ_DEPTH` (20_memory.md R65) -/
  rxqDepth          : Nat
  /-- `ECHOQ_DEPTH` (20_memory.md R66) -/
  echoqDepth        : Nat
  /-- `DIV0(fps)` (43_clock_adjust.md R211) -/
  div0              : DividerTable
  /-- `DIV_STEP`, the physical size of one divider step as a fraction of the bit clock (43_clock_adjust.md R211): no rule
  depends on it; `State.bitClockOffset` reads it -/
  divStep           : Rat
  /-- `CAL_DIR` (43_clock_adjust.md R214) -/
  calDir            : Direction
  /-- `CAL_MAX` (43_clock_adjust.md R215) -/
  calMax            : Rat
  /-- `on_duration` (43_clock_adjust.md R217) -/
  onRounding        : OnRounding
  /-- `SAFETY_MARGIN` in ms (43_clock_adjust.md R220) -/
  safetyMargin      : Nat
  /-- `JAM_MAX` (10_state.md R33) -/
  jamMax            : Nat
  /-- `JAM_OFFSET` (44_engine_control.md R257), the operand that the Jam software passes to JAM_LOAD (`jamSoftwareLoad`) -/
  jamOffset         : Nat
  deriving DecidableEq, Repr

/-- The bounds that 00_scope.md R7 puts on the parameters. -/
abbrev Params.Ok (p : Params) : Prop :=
  2 ≤ p.rxqDepth ∧ 1 ≤ p.echoqDepth ∧ 0 ≤ p.calMax ∧ 0 < p.safetyMargin ∧ p.jamOffset ≤ 2

/-- Free: the nominal divider of each rate at reset, for which R7 gives no default. No value follows. -/
opaque Config.div0At : Rate → Int

/-- Free: `SAFETY_MARGIN` at reset less 1, for which R7 gives no default but "greater than 0". -/
opaque Config.safetyMarginLess1 : Nat

/-- Free: `DIV_STEP` at reset, for which R7 gives no default. -/
opaque Config.divStep : Rat

/-- Free: `JAM_OFFSET` at reset, for which R7 gives no default but "one of 0, 1, 2": a natural before it is brought into
that range. -/
opaque Config.freeJamOffset : Nat

/-- Free: whether a platform's `on_duration` rounds `P * f` up at this period and fraction (R217). -/
opaque Config.onRoundsUp : Nat → Rat → Bool

/-- Free: the k-th draw of R132, a natural before it is brought into the range of the draw. -/
opaque Config.freeNat : Nat → Nat

/-- `TXQ_DEPTH` (20_memory.md R64). -/
def Config.txqDepth : Nat := 8

/-- `TX_WATERMARK` (41_ltc_encoder.md R177). -/
def Config.txWatermark : Nat := 7

/-- `PERIOD_DEFAULT` in ms (43_clock_adjust.md R215). -/
def Config.periodDefault : Nat := 10000

/-- The defaults of 00_scope.md R7; where it gives none, a free value. -/
def Config.params : Params where
  fam25Includes2498 := false
  syncphReset       := true
  rxqDepth          := 8
  echoqDepth        := 8
  div0              := ⟨Config.div0At .r30, Config.div0At .r2997, Config.div0At .r25,
                        Config.div0At .r2498, Config.div0At .r24, Config.div0At .r2398⟩
  divStep           := Config.divStep
  calDir            := .up
  calMax            := 50
  onRounding        := .floor
  safetyMargin      := Config.safetyMarginLess1 + 1
  jamMax            := 64
  jamOffset         := Config.freeJamOffset % 3

end Sys2Proof
end

