-- ==== Sys2Proof/Syntax.lean ====
section
/-! DEFINITION. The operations of the block as syntax: one constructor of `Instr` per row of spec/opcode_table.json,
with the operand types of 30_encoding.md R110 to R113 and the data formats of R92, R93, R96, R102, R105. -/

namespace Sys2Proof

/-- A timecode register file operand `T` (10_state.md R21, R31). -/
inductive File where
  | tx | rx
  deriving DecidableEq, Repr

/-- A lock name operand (44_engine_control.md R254). -/
inductive Lock where
  | tx | rx | div
  deriving DecidableEq, Repr

/-- A mode operand of START and SET_MODE: a value of `MODE` (10_state.md R33), or a tag that is "not a mode"
(44_engine_control.md R251). -/
inductive ModeArg where
  | halted | run | monitor
  | jamming (n : Nat)
  | notAMode (tag : Byte)
  deriving DecidableEq, Repr

/-- A calibration operand (30_encoding.md R110): a signed rational, or one of the values that are not finite
numbers and that the operation refuses. -/
inductive CalArg where
  | finite (c : Rat)
  | nan | posInf | negInf
  deriving DecidableEq, Repr

/-- The fields of data word `W0` (30_encoding.md R92). -/
structure LtcW0 where
  ffUnits : Nibble
  uf1     : Nibble
  ffTens  : BitVec 2
  df      : Bool
  cf      : Bool
  uf2     : Nibble
  ssUnits : Nibble
  uf3     : Nibble
  ssTens  : BitVec 3
  f27     : Bool
  uf4     : Nibble
  deriving DecidableEq, Repr

/-- The fields of data word `W1` (30_encoding.md R93). -/
structure LtcW1 where
  mmUnits : Nibble
  uf5     : Nibble
  mmTens  : BitVec 3
  f43     : Bool
  uf6     : Nibble
  hhUnits : Nibble
  uf7     : Nibble
  hhTens  : BitVec 2
  f58     : Bool
  f59     : Bool
  uf8     : Nibble
  deriving DecidableEq, Repr

/-- The fields of a raw 32-bit snapshot (30_encoding.md R105). -/
structure Raw32 where
  df : Bool
  hh : BitVec 7
  mm : BitVec 8
  ss : BitVec 8
  ff : BitVec 8
  deriving DecidableEq, Repr

/-- The closed operation set of 30_encoding.md R112 (the first 29 constructors), and the seven data-format rows of
the opcode table, which are forms of words and not operations. -/
inductive Instr where
  -- timecode value operations (40_timecode_ops.md)
  | setFpsDf (t : File) (fps : BitVec 3) (df : Bool)
  | loadTc (t : File) (hh mm ss ff : Nat)
  | nextFrame (t : File)
  | prevFrame (t : File)
  | toRaw (t : File)
  | toAscii (t : File)
  | fromAscii (t : File) (s : List Byte)
  | setUb (t : File) (n1 n2 n3 n4 n5 n6 n7 n8 : Nibble)
  | setFlags (t : File) (cf clk bgf0 bgf2 : Bool)
  | readRawStable (t : File)
  -- the encoder (41_ltc_encoder.md)
  | encPacket (sendSync : Bool)
  | txFrame
  -- the decoder (42_ltc_decoder.md)
  | decPacket (w0 w1 : Word)
  | decPacket3 (x0 x1 x2 : Word)
  | decFrame80 (w0 w1 : Word) (s16 : Half)
  | rxPoll
  -- the clock adjuster (43_clock_adjust.md)
  | microAdjust (c : CalArg) (period : Option Int)
  | mainFire
  | safeFire
  | cancelDither
  | loadCal (c : CalArg) (period : Option Int)
  -- engine control (44_engine_control.md)
  | start (mode : ModeArg)
  | stop
  | setMode (mode : ModeArg)
  | acquire (l : Lock)
  | release (l : Lock)
  | jamLoad (k : Nat)
  -- the line side
  | lineTxPop
  | lineRxPush (w : Word)
  -- data formats (30_encoding.md): no operations
  | ltcW0 (f : LtcW0)
  | ltcW1 (f : LtcW1)
  | p3X0 (w : Half)
  | p3X1 (v w : Half)
  | p3X2 (v : Half)
  | sync16
  | raw32 (f : Raw32)
  deriving DecidableEq, Repr

end Sys2Proof
end

