-- ==== Sys2Proof/WellFormed.lean ====
section
/-! DEFINITION. Which operations the byte layout of this model's operation port can carry (notes/assumptions/1.md):
a bound on each unbounded operand. Every operation has its meaning whether or not it is well-formed. -/

namespace Sys2Proof

/-- A "not a mode" tag is none of the four tags that are modes. -/
def ModeArg.wf : ModeArg → Bool
  | .jamming n    => decide (n < 2 ^ 32)
  | .notAMode tag => decide (4 ≤ tag.toNat)
  | .halted | .run | .monitor => true

/-- A rational fits the port when its magnitude and its denominator fit 8 bytes each. -/
def CalArg.wf : CalArg → Bool
  | .finite c => decide (c.num.natAbs < 2 ^ 64) && decide (c.den ≤ 2 ^ 64)
  | .nan | .posInf | .negInf => true

/-- A period fits the port when its magnitude fits 8 bytes. -/
def periodWf (p : Int) : Bool := decide (p.natAbs < 2 ^ 64)

/-- The operations that the port's byte layout can carry. -/
def Instr.wf : Instr → Bool
  | .loadTc _ hh mm ss ff =>
      decide (hh < 2 ^ 32) && decide (mm < 2 ^ 32) && decide (ss < 2 ^ 32) && decide (ff < 2 ^ 32)
  | .fromAscii _ s         => decide (s.length < 2 ^ 8)
  | .microAdjust c p       => c.wf && p.all periodWf
  | .loadCal c p           => c.wf && p.all periodWf
  | .start m               => m.wf
  | .setMode m             => m.wf
  | .jamLoad k             => decide (k < 2 ^ 32)
  | .setFpsDf _ _ _ | .nextFrame _ | .prevFrame _ | .toRaw _ | .toAscii _
  | .setUb _ _ _ _ _ _ _ _ _ | .setFlags _ _ _ _ _ | .readRawStable _
  | .encPacket _ | .txFrame | .decPacket _ _ | .decPacket3 _ _ _ | .decFrame80 _ _ _ | .rxPoll
  | .mainFire | .safeFire | .cancelDither | .stop | .acquire _ | .release _
  | .lineTxPop | .lineRxPush _
  | .ltcW0 _ | .ltcW1 _ | .p3X0 _ | .p3X1 _ _ | .p3X2 _ | .sync16 | .raw32 _ => true

end Sys2Proof
end

