-- ==== Sys2Proof/Decode.lean ====
section
/-! DEFINITION. Words and operations as bits: the layouts of 30_encoding.md (R92, R93, R96, R102, R105), the operation
codes of R112, the decoder of the operation port, total on any bytes, and after it the encoder. -/

namespace Sys2Proof

/-! ### Data formats -/

/-- `SYNC16 = 0xBFFC` (30_encoding.md R96). -/
def syncPattern : Half := 0xBFFC#16

/-- A field of any width, zero-extended and shifted to its place in a word. -/
def fieldAt {n : Nat} (v : BitVec n) (k : Nat) : Word := v.setWidth 32 <<< k

/-- A one-bit field at bit `k`. -/
def bitAt (b : Bool) (k : Nat) : Word := fieldAt (BitVec.ofBool b) k

/-- The word of `W0`'s fields: 30_encoding.md R92, in the shifts of 41_ltc_encoder.md R171. -/
def LtcW0.word (f : LtcW0) : Word :=
  fieldAt f.ffUnits 0 ||| fieldAt f.uf1 4 ||| fieldAt f.ffTens 8
    ||| bitAt f.df 10 ||| bitAt f.cf 11 ||| fieldAt f.uf2 12
    ||| fieldAt f.ssUnits 16 ||| fieldAt f.uf3 20 ||| fieldAt f.ssTens 24
    ||| bitAt f.f27 27 ||| fieldAt f.uf4 28

/-- The fields of a word read as `W0`: 30_encoding.md R92, in the slices of 42_ltc_decoder.md R191. -/
def LtcW0.ofWord (w : Word) : LtcW0 where
  ffUnits := w.extractLsb' 0 4
  uf1     := w.extractLsb' 4 4
  ffTens  := w.extractLsb' 8 2
  df      := w.getLsbD 10
  cf      := w.getLsbD 11
  uf2     := w.extractLsb' 12 4
  ssUnits := w.extractLsb' 16 4
  uf3     := w.extractLsb' 20 4
  ssTens  := w.extractLsb' 24 3
  f27     := w.getLsbD 27
  uf4     := w.extractLsb' 28 4

/-- The word of `W1`'s fields: 30_encoding.md R93, in the shifts of 41_ltc_encoder.md R171. -/
def LtcW1.word (f : LtcW1) : Word :=
  fieldAt f.mmUnits 0 ||| fieldAt f.uf5 4 ||| fieldAt f.mmTens 8
    ||| bitAt f.f43 11 ||| fieldAt f.uf6 12
    ||| fieldAt f.hhUnits 16 ||| fieldAt f.uf7 20 ||| fieldAt f.hhTens 24
    ||| bitAt f.f58 26 ||| bitAt f.f59 27 ||| fieldAt f.uf8 28

/-- The fields of a word read as `W1`: 30_encoding.md R93, in the slices of 42_ltc_decoder.md R191. -/
def LtcW1.ofWord (w : Word) : LtcW1 where
  mmUnits := w.extractLsb' 0 4
  uf5     := w.extractLsb' 4 4
  mmTens  := w.extractLsb' 8 3
  f43     := w.getLsbD 11
  uf6     := w.extractLsb' 12 4
  hhUnits := w.extractLsb' 16 4
  uf7     := w.extractLsb' 20 4
  hhTens  := w.extractLsb' 24 2
  f58     := w.getLsbD 26
  f59     := w.getLsbD 27
  uf8     := w.extractLsb' 28 4

/-- The raw 32-bit word of its fields (30_encoding.md R105, 40_timecode_ops.md R137). -/
def Raw32.word (f : Raw32) : Word :=
  bitAt f.df 31 ||| fieldAt f.hh 24 ||| fieldAt f.mm 16 ||| fieldAt f.ss 8 ||| fieldAt f.ff 0

/-- The fields of a raw 32-bit word (30_encoding.md R105). -/
def Raw32.ofWord (w : Word) : Raw32 where
  df := w.getLsbD 31
  hh := w.extractLsb' 24 7
  mm := w.extractLsb' 16 8
  ss := w.extractLsb' 8 8
  ff := w.extractLsb' 0 8

/-! ### Reading operands

The spec packs no operand into a word (R113): the bytes after the operation code are this model's layout
(notes/assumptions/1.md), least significant byte first. -/

/-- `k` bytes as a natural, least significant first. -/
def readNat : Nat → List Byte → Option (Nat × List Byte)
  | 0, bs => some (0, bs)
  | _ + 1, [] => none
  | k + 1, b :: bs =>
    match readNat k bs with
    | some (n, rest) => some (b.toNat + 256 * n, rest)
    | none => none

/-- A bit, as a byte 0 or 1. -/
def readBit : List Byte → Option (Bool × List Byte)
  | 0#8 :: bs => some (false, bs)
  | 1#8 :: bs => some (true, bs)
  | _ => none

/-- A register file: 0 is TX, 1 is RX. -/
def readFile : List Byte → Option (File × List Byte)
  | 0#8 :: bs => some (.tx, bs)
  | 1#8 :: bs => some (.rx, bs)
  | _ => none

/-- A lock name: 0 is TX.lock, 1 is RX.lock, 2 is DIVLOCK. -/
def readLock : List Byte → Option (Lock × List Byte)
  | 0#8 :: bs => some (.tx, bs)
  | 1#8 :: bs => some (.rx, bs)
  | 2#8 :: bs => some (.div, bs)
  | _ => none

/-- A nibble in the low half of a byte whose high half is 0. -/
def readNibble : List Byte → Option (Nibble × List Byte)
  | b :: bs => if b.toNat < 16 then some (BitVec.ofNat 4 b.toNat, bs) else none
  | [] => none

/-- A 3-bit rate code in a byte (30_encoding.md R111). -/
def readRateCode : List Byte → Option ((BitVec 3) × List Byte)
  | b :: bs => if b.toNat < 8 then some (BitVec.ofNat 3 b.toNat, bs) else none
  | [] => none

/-- A 32-bit word. -/
def readWord (bs : List Byte) : Option (Word × List Byte) := do
  let (n, bs) ← readNat 4 bs
  some (BitVec.ofNat 32 n, bs)

/-- A 16-bit half. -/
def readHalf (bs : List Byte) : Option (Half × List Byte) := do
  let (n, bs) ← readNat 2 bs
  some (BitVec.ofNat 16 n, bs)

/-- A signed integer: a sign bit and an 8-byte magnitude. -/
def readInt (bs : List Byte) : Option (Int × List Byte) := do
  let (neg, bs) ← readBit bs
  let (n, bs) ← readNat 8 bs
  some (if neg then -(n : Int) else (n : Int), bs)

/-- An optional signed integer: 0 for none, 1 before one. -/
def readOptInt (bs : List Byte) : Option ((Option Int) × List Byte) := do
  let (present, bs) ← readBit bs
  if present then
    let (p, bs) ← readInt bs
    some (some p, bs)
  else some (none, bs)

/-- A calibration operand: 0 before a rational as numerator and denominator less 1; 1, 2, 3 for not-a-number and
the infinities. -/
def readCal : List Byte → Option (CalArg × List Byte)
  | 0#8 :: bs => do
      let (num, bs) ← readInt bs
      let (den, bs) ← readNat 8 bs
      some (.finite (mkRat num (den + 1)), bs)
  | 1#8 :: bs => some (.nan, bs)
  | 2#8 :: bs => some (.posInf, bs)
  | 3#8 :: bs => some (.negInf, bs)
  | _ => none

/-- A mode operand: 0 Halted, 1 Run, 2 Monitor, 3 before the count of Jamming; any other tag is not a mode. -/
def readMode : List Byte → Option (ModeArg × List Byte)
  | 0#8 :: bs => some (.halted, bs)
  | 1#8 :: bs => some (.run, bs)
  | 2#8 :: bs => some (.monitor, bs)
  | 3#8 :: bs => do
      let (n, bs) ← readNat 4 bs
      some (.jamming n, bs)
  | tag :: bs => some (.notAMode tag, bs)
  | [] => none

/-- A string: its length in a byte, then its characters. -/
def readString : List Byte → Option ((List Byte) × List Byte)
  | n :: bs => if n.toNat ≤ bs.length then some (bs.take n.toNat, bs.drop n.toNat) else none
  | [] => none

/-! ### The decoder -/

/-- What the caller says the bytes are. "Nothing in a word says which form it belongs to" (30_encoding.md R104):
an operation, or one of the seven data formats. -/
inductive Form where
  | op | w0 | w1 | x0 | x1 | x2 | sync | raw
  deriving DecidableEq, Repr

/-- An operation from its code (30_encoding.md R112) and its operand bytes, with the bytes left over. Codes not
listed are reserved: they are read as no operation. -/
def decodeOp : Byte → List Byte → Option (Instr × List Byte)
  | 0x01#8, bs => do
      let (t, bs) ← readFile bs
      let (fps, bs) ← readRateCode bs
      let (df, bs) ← readBit bs
      some (.setFpsDf t fps df, bs)
  | 0x02#8, bs => do
      let (t, bs) ← readFile bs
      let (hh, bs) ← readNat 4 bs
      let (mm, bs) ← readNat 4 bs
      let (ss, bs) ← readNat 4 bs
      let (ff, bs) ← readNat 4 bs
      some (.loadTc t hh mm ss ff, bs)
  | 0x03#8, bs => do
      let (t, bs) ← readFile bs
      some (.nextFrame t, bs)
  | 0x04#8, bs => do
      let (t, bs) ← readFile bs
      some (.prevFrame t, bs)
  | 0x05#8, bs => do
      let (t, bs) ← readFile bs
      some (.toRaw t, bs)
  | 0x06#8, bs => do
      let (t, bs) ← readFile bs
      some (.toAscii t, bs)
  | 0x07#8, bs => do
      let (t, bs) ← readFile bs
      let (s, bs) ← readString bs
      some (.fromAscii t s, bs)
  | 0x08#8, bs => do
      let (t, bs) ← readFile bs
      let (n1, bs) ← readNibble bs
      let (n2, bs) ← readNibble bs
      let (n3, bs) ← readNibble bs
      let (n4, bs) ← readNibble bs
      let (n5, bs) ← readNibble bs
      let (n6, bs) ← readNibble bs
      let (n7, bs) ← readNibble bs
      let (n8, bs) ← readNibble bs
      some (.setUb t n1 n2 n3 n4 n5 n6 n7 n8, bs)
  | 0x09#8, bs => do
      let (t, bs) ← readFile bs
      let (cf, bs) ← readBit bs
      let (clk, bs) ← readBit bs
      let (bgf0, bs) ← readBit bs
      let (bgf2, bs) ← readBit bs
      some (.setFlags t cf clk bgf0 bgf2, bs)
  | 0x0A#8, bs => do
      let (t, bs) ← readFile bs
      some (.readRawStable t, bs)
  | 0x10#8, bs => do
      let (b, bs) ← readBit bs
      some (.encPacket b, bs)
  | 0x11#8, bs => some (.txFrame, bs)
  | 0x18#8, bs => do
      let (w0, bs) ← readWord bs
      let (w1, bs) ← readWord bs
      some (.decPacket w0 w1, bs)
  | 0x19#8, bs => do
      let (x0, bs) ← readWord bs
      let (x1, bs) ← readWord bs
      let (x2, bs) ← readWord bs
      some (.decPacket3 x0 x1 x2, bs)
  | 0x1A#8, bs => do
      let (w0, bs) ← readWord bs
      let (w1, bs) ← readWord bs
      let (s16, bs) ← readHalf bs
      some (.decFrame80 w0 w1 s16, bs)
  | 0x1B#8, bs => some (.rxPoll, bs)
  | 0x20#8, bs => do
      let (c, bs) ← readCal bs
      let (p, bs) ← readOptInt bs
      some (.microAdjust c p, bs)
  | 0x21#8, bs => some (.mainFire, bs)
  | 0x22#8, bs => some (.safeFire, bs)
  | 0x23#8, bs => some (.cancelDither, bs)
  | 0x24#8, bs => do
      let (c, bs) ← readCal bs
      let (p, bs) ← readOptInt bs
      some (.loadCal c p, bs)
  | 0x30#8, bs => do
      let (m, bs) ← readMode bs
      some (.start m, bs)
  | 0x31#8, bs => some (.stop, bs)
  | 0x32#8, bs => do
      let (m, bs) ← readMode bs
      some (.setMode m, bs)
  | 0x33#8, bs => do
      let (l, bs) ← readLock bs
      some (.acquire l, bs)
  | 0x34#8, bs => do
      let (l, bs) ← readLock bs
      some (.release l, bs)
  | 0x35#8, bs => do
      let (k, bs) ← readNat 4 bs
      some (.jamLoad k, bs)
  | 0x40#8, bs => some (.lineTxPop, bs)
  | 0x41#8, bs => do
      let (w, bs) ← readWord bs
      some (.lineRxPush w, bs)
  | _, _ => none

/-- The decoder of the operation port: the bytes at the port, under the form the caller names (R104). -/
def decode : Form → List Byte → Option (Instr × List Byte)
  | .op, code :: bs => decodeOp code bs
  | .op, [] => none
  | .w0, bs => do
      let (w, bs) ← readWord bs
      some (.ltcW0 (LtcW0.ofWord w), bs)
  | .w1, bs => do
      let (w, bs) ← readWord bs
      some (.ltcW1 (LtcW1.ofWord w), bs)
  | .x0, bs => do
      let (w, bs) ← readWord bs
      if lowHalf w = syncPattern then some (.p3X0 (highHalf w), bs) else none
  | .x1, bs => do
      let (w, bs) ← readWord bs
      some (.p3X1 (highHalf w) (lowHalf w), bs)
  | .x2, bs => do
      let (w, bs) ← readWord bs
      if highHalf w = syncPattern then some (.p3X2 (lowHalf w), bs) else none
  | .sync, bs => do
      let (h, bs) ← readHalf bs
      if h = syncPattern then some (.sync16, bs) else none
  | .raw, bs => do
      let (w, bs) ← readWord bs
      some (.raw32 (Raw32.ofWord w), bs)

/-! ### The encoder -/

/-- A natural in `k` bytes, least significant first. -/
def natBytes : Nat → Nat → List Byte
  | 0, _ => []
  | k + 1, n => BitVec.ofNat 8 n :: natBytes k (n / 256)

def bitBytes (b : Bool) : List Byte := [if b then 1#8 else 0#8]

def fileBytes : File → List Byte
  | .tx => [0#8]
  | .rx => [1#8]

def lockBytes : Lock → List Byte
  | .tx => [0#8]
  | .rx => [1#8]
  | .div => [2#8]

def nibbleBytes (n : Nibble) : List Byte := [BitVec.ofNat 8 n.toNat]

def wordBytes (w : Word) : List Byte := natBytes 4 w.toNat

def halfBytes (h : Half) : List Byte := natBytes 2 h.toNat

def intBytes (p : Int) : List Byte := bitBytes (decide (p < 0)) ++ natBytes 8 p.natAbs

def optIntBytes : Option Int → List Byte
  | none => bitBytes false
  | some p => bitBytes true ++ intBytes p

def calBytes : CalArg → List Byte
  | .finite c => 0#8 :: (intBytes c.num ++ natBytes 8 (c.den - 1))
  | .nan => [1#8]
  | .posInf => [2#8]
  | .negInf => [3#8]

def modeBytes : ModeArg → List Byte
  | .halted => [0#8]
  | .run => [1#8]
  | .monitor => [2#8]
  | .jamming n => 3#8 :: natBytes 4 n
  | .notAMode tag => [tag]

def stringBytes (s : List Byte) : List Byte := BitVec.ofNat 8 s.length :: s

/-- The form under which an operation or a data word stands at the port. -/
def Instr.form : Instr → Form
  | .ltcW0 _ => .w0
  | .ltcW1 _ => .w1
  | .p3X0 _ => .x0
  | .p3X1 _ _ => .x1
  | .p3X2 _ => .x2
  | .sync16 => .sync
  | .raw32 _ => .raw
  | .setFpsDf _ _ _ | .loadTc _ _ _ _ _ | .nextFrame _ | .prevFrame _ | .toRaw _ | .toAscii _ | .fromAscii _ _
  | .setUb _ _ _ _ _ _ _ _ _ | .setFlags _ _ _ _ _ | .readRawStable _
  | .encPacket _ | .txFrame | .decPacket _ _ | .decPacket3 _ _ _ | .decFrame80 _ _ _ | .rxPoll
  | .microAdjust _ _ | .mainFire | .safeFire | .cancelDither | .loadCal _ _
  | .start _ | .stop | .setMode _ | .acquire _ | .release _ | .jamLoad _ | .lineTxPop | .lineRxPush _ => .op

/-- The bytes of an operation: its code of R112 and its operands; of a data format, the word's bytes. -/
def encode : Instr → List Byte
  | .setFpsDf t fps df => 0x01#8 :: (fileBytes t ++ (BitVec.ofNat 8 fps.toNat :: bitBytes df))
  | .loadTc t hh mm ss ff =>
      0x02#8 :: (fileBytes t ++ (natBytes 4 hh ++ (natBytes 4 mm ++ (natBytes 4 ss ++ natBytes 4 ff))))
  | .nextFrame t => 0x03#8 :: fileBytes t
  | .prevFrame t => 0x04#8 :: fileBytes t
  | .toRaw t => 0x05#8 :: fileBytes t
  | .toAscii t => 0x06#8 :: fileBytes t
  | .fromAscii t s => 0x07#8 :: (fileBytes t ++ stringBytes s)
  | .setUb t n1 n2 n3 n4 n5 n6 n7 n8 =>
      0x08#8 :: (fileBytes t ++ (nibbleBytes n1 ++ (nibbleBytes n2 ++ (nibbleBytes n3 ++ (nibbleBytes n4
        ++ (nibbleBytes n5 ++ (nibbleBytes n6 ++ (nibbleBytes n7 ++ nibbleBytes n8))))))))
  | .setFlags t cf clk bgf0 bgf2 =>
      0x09#8 :: (fileBytes t ++ (bitBytes cf ++ (bitBytes clk ++ (bitBytes bgf0 ++ bitBytes bgf2))))
  | .readRawStable t => 0x0A#8 :: fileBytes t
  | .encPacket b => 0x10#8 :: bitBytes b
  | .txFrame => [0x11#8]
  | .decPacket w0 w1 => 0x18#8 :: (wordBytes w0 ++ wordBytes w1)
  | .decPacket3 x0 x1 x2 => 0x19#8 :: (wordBytes x0 ++ (wordBytes x1 ++ wordBytes x2))
  | .decFrame80 w0 w1 s16 => 0x1A#8 :: (wordBytes w0 ++ (wordBytes w1 ++ halfBytes s16))
  | .rxPoll => [0x1B#8]
  | .microAdjust c p => 0x20#8 :: (calBytes c ++ optIntBytes p)
  | .mainFire => [0x21#8]
  | .safeFire => [0x22#8]
  | .cancelDither => [0x23#8]
  | .loadCal c p => 0x24#8 :: (calBytes c ++ optIntBytes p)
  | .start m => 0x30#8 :: modeBytes m
  | .stop => [0x31#8]
  | .setMode m => 0x32#8 :: modeBytes m
  | .acquire l => 0x33#8 :: lockBytes l
  | .release l => 0x34#8 :: lockBytes l
  | .jamLoad k => 0x35#8 :: natBytes 4 k
  | .lineTxPop => [0x40#8]
  | .lineRxPush w => 0x41#8 :: wordBytes w
  | .ltcW0 f => wordBytes f.word
  | .ltcW1 f => wordBytes f.word
  | .p3X0 w => wordBytes (wordOfHalves syncPattern w)
  | .p3X1 v w => wordBytes (wordOfHalves w v)
  | .p3X2 v => wordBytes (wordOfHalves v syncPattern)
  | .sync16 => halfBytes syncPattern
  | .raw32 f => wordBytes f.word

/-! ### The opcode table's words -/

/-- Operand bytes after a table word: the longest operation that the port carries has 258 bytes. -/
def operandZeros : List Byte := List.replicate 257 0#8

/-- The form that a table row of this width and these bits is in: 8 bits are an operation code, 16 bits the sync
pattern, 32 bits a data word, told apart by where the sync pattern stands (notes/assumptions/2.md). -/
def tableForm (nbits w : Nat) : Form :=
  if nbits = 16 then .sync
  else if nbits = 32 then
    if w % 2 ^ 16 = syncPattern.toNat then .x0
    else if w / 2 ^ 16 = syncPattern.toNat then .x2
    else .w0
  else .op

/-- The bytes of a table word, the first byte its least significant one, with operands of zeros. -/
def tableBytes (nbits w : Nat) : List Byte := natBytes (nbits / 8) w ++ operandZeros

/-- What the decoder reads from a word of spec/opcode_table.json. -/
def decodeTableWord (nbits w : Nat) : Option Instr :=
  (decode (tableForm nbits w) (tableBytes nbits w)).map Prod.fst

end Sys2Proof
end

