-- ==== Sys2Proof/Machine/State.lean ====
section
/-! DEFINITION. The state of the block (10_state.md R20 to R46) as plain data, the agents, the inputs that wait at its
ports, the ways a step can stop, and reset. The block has no addressable memory (20_memory.md R60): its storage is the
register files, the registers and three word queues. -/

namespace Sys2Proof.Machine

/-- The agents that issue operations (60_exceptions.md R290). -/
inductive Agent where
  | rt | ui | lineTx | lineRx | timer | host
  deriving DecidableEq, Repr

/-- The mode register `MODE` (10_state.md R33). -/
inductive Mode where
  | halted | run | monitor
  | jamming (n : Nat)
  deriving DecidableEq, Repr

/-- The dither phase `DSTATE` (10_state.md R40). -/
inductive DitherState where
  | idle | on | off
  deriving DecidableEq, Repr

/-- The output `LINE_OUT` (20_memory.md R62): held low, or driven by the line encoder, whose waveform is out of scope. -/
inductive LineOut where
  | low | driven
  deriving DecidableEq, Repr

/-- The events of the block (60_exceptions.md R270). -/
inductive Event where
  | underflow | decodeReject | parityErr | syncErr | safetyTimeout
  | setFpsReject | loadReject | rxOverflow | calRange
  deriving DecidableEq, Repr

/-- What an operation delivers to its issuer (column "result" of 30_encoding.md R112). `held` is the outcome of an
operation that "has no step now" (00_scope.md R9): nothing happened and the operation is still to be done. -/
inductive Result where
  | none
  | held
  | bool (b : Bool)
  | word (w : Word)
  | words (ws : List Word)
  | chars (cs : List Byte)
  deriving DecidableEq, Repr

/-- One timecode register file (10_state.md R21) without its mutex, which is a field of `State`. -/
structure Timecode where
  hh   : BitVec 6
  mm   : BitVec 7
  ss   : BitVec 7
  ff   : BitVec 5
  fps  : Rate
  df   : Bool
  cf   : Bool
  clk  : Bool
  bgf0 : Bool
  bgf2 : Bool
  uf1  : Nibble
  uf2  : Nibble
  uf3  : Nibble
  uf4  : Nibble
  uf5  : Nibble
  uf6  : Nibble
  uf7  : Nibble
  uf8  : Nibble
  deriving DecidableEq, Repr

/-- The five fields of a register file that its raw form holds (30_encoding.md R105), as a reader may find them. -/
structure RawFields where
  df : Bool
  hh : BitVec 6
  mm : BitVec 7
  ss : BitVec 7
  ff : BitVec 5
  deriving DecidableEq, Repr

/-- The status flags `ST` (10_state.md R32, R37). -/
structure Status where
  underflow   : Bool
  rxOk        : Bool
  rxPerr      : Bool
  rxSyncErr   : Bool
  rxOvf       : Bool
  safetyCount : Nat
  deriving DecidableEq, Repr

/-- The divider and calibration registers (10_state.md R38). -/
structure Divider where
  /-- `DIV`, the divider's present value -/
  div       : Int
  /-- `DIV0`, the nominal divider loaded by START -/
  div0      : Int
  /-- `COARSE` -/
  coarse    : Int
  /-- `FINE` -/
  fine      : Int
  /-- `CAL_TGT` -/
  calTgt    : Rat
  /-- `CAL_ACT` -/
  calAct    : Rat
  /-- `PERIOD`, ms -/
  period    : Nat
  /-- `PERIOD_ACT`, ms -/
  periodAct : Nat
  /-- `DSTATE` -/
  dstate    : DitherState
  /-- `T_MAIN`, a deadline in ms when armed -/
  tMain     : Option Nat
  /-- `T_SAFE`, a deadline in ms when armed -/
  tSafe     : Option Nat
  deriving DecidableEq, Repr

/-- A step of a LINE agent that falls between two sub-steps of TX_FRAME or RX_POLL (00_scope.md R11). -/
inductive LineStep where
  | pop
  | push (w : Word)
  deriving DecidableEq, Repr

/-- Which of the five fields an unlocked RAW32 evaluation finds already written by the operation in progress
(40_timecode_ops.md R142); it finds the others old. -/
structure Tear where
  df : Bool
  hh : Bool
  mm : Bool
  ss : Bool
  ff : Bool
  deriving DecidableEq, Repr

/-- What an agent has to do next at the block's ports. -/
inductive Act where
  /-- an operation or a data word at the operation port (20_memory.md R62), in bytes, under a form (30_encoding.md R104) -/
  | op (form : Form) (bytes : List Byte)
  /-- `Pop(ECHOQ)` by display software (20_memory.md R62, 60_exceptions.md R291) -/
  | echoPop
  /-- the RT loop's RX_POLL of each pass (44_engine_control.md R259) -/
  | poll
  /-- the RT loop's refill test and the TX_FRAME under it (41_ltc_encoder.md R177) -/
  | refill
  /-- the RT loop's check of STOPREQ and the second half of STOP (44_engine_control.md R252) -/
  | stopCheck
  /-- `STEP T, n`: n times NEXT_FRAME under one hold of the file's lock (30_encoding.md R114) -/
  | stepCount (t : File) (n : Nat)
  /-- `PREV_FRAME T, count`: count times PREV_FRAME under one hold of the file's lock (30_encoding.md R114) -/
  | prevFrameCount (t : File) (count : Nat)
  /-- the HOST builds the block anew (70_reset_and_hazards.md R300) -/
  | rebuild
  deriving DecidableEq, Repr

/-- One thing waiting at a port, with the agent it belongs to. -/
structure Item where
  agent : Agent
  act   : Act
  deriving DecidableEq, Repr

/-- One turn of the schedule (60_exceptions.md R285: any enabled step may go next): whose step it is, how many
milliseconds pass before it (70_reset_and_hazards.md R326: any number), which LINE steps fall into its sub-steps,
which other agent's operation is in progress beside it, and what its unlocked reads find of that. -/
structure Turn where
  agent   : Agent
  elapsed : Nat
  between : List (List LineStep)
  writer  : Option Agent
  tears   : List (Tear × Tear)
  deriving DecidableEq, Repr

/-- The state of the block. -/
structure State where
  /-- the transmit register file `TX` (R21) -/
  tx        : Timecode
  /-- the receive register file `RX` (R21, R31) -/
  rx        : Timecode
  /-- `TX.lock`: free, or held by one agent (R29) -/
  txLock    : Option Agent
  /-- `RX.lock` (R29) -/
  rxLock    : Option Agent
  /-- `DIVLOCK` (R38) -/
  divLock   : Option Agent
  /-- `MODE` (R33) -/
  mode      : Mode
  /-- `STOPREQ` (R36) -/
  stopReq   : Bool
  /-- `SYNCPH` (R35) -/
  syncph    : Bool
  /-- the `ST.*` flags (R37) -/
  st        : Status
  /-- the divider registers (R38) -/
  dv        : Divider
  /-- `TXQ`, oldest first (R42) -/
  txq       : List Word
  /-- `RXQ`, oldest first (R42) -/
  rxq       : List Word
  /-- `ECHOQ`, oldest first (R42) -/
  echoq     : List Word
  /-- the two words that an RX_POLL under way has popped and not decoded yet, while its DEC_PACKET holds for `RX.lock`
  (42_ltc_decoder.md R197, R194) -/
  rxHeld    : Option (Word × Word)
  /-- `LINE_OUT` (20_memory.md R62) -/
  lineOut   : LineOut
  /-- the words handed to the line encoder at port TXQ.pop, oldest first (20_memory.md R62, R77) -/
  lineWords : List Word
  /-- the millisecond counter `now` (00_scope.md R9, R10) -/
  now       : Nat
  /-- the parameters of 00_scope.md R7, which no step changes -/
  par       : Params
  /-- model's own: the agent whose step is being taken -/
  agent     : Agent
  /-- model's own: what the last step delivered -/
  result    : Result
  /-- model's own: the events the last step raised, in order -/
  events    : List Event
  /-- model's own: how many free draws have been taken (40_timecode_ops.md R132) -/
  draws     : Nat
  /-- model's own: the LINE steps that fall into the sub-steps of the present operation -/
  between   : List (List LineStep)
  /-- model's own: what the present operation's unlocked reads find -/
  tears     : List (Tear × Tear)
  /-- model's own: TX's raw fields as the operation in progress leaves them (40_timecode_ops.md R142) -/
  newTx     : RawFields
  /-- model's own: RX's raw fields as the operation in progress leaves them -/
  newRx     : RawFields
  /-- model's own: the agent whose operation an unlocked read has found in progress; that operation is the next step that any
  agent takes but further unlocked reads (40_timecode_ops.md R142) -/
  inProgress : Option Agent
  /-- model's own: what waits at the ports, each agent's items in its own order -/
  port      : List Item
  /-- model's own: whose turn comes next -/
  sched     : List Turn
  deriving DecidableEq, Repr

/-- Why a step stops the machine: never. Every condition that 60_exceptions.md R270 lists has an effect after which the
block goes on, so the type has no constructor and no step can fault. -/
inductive Fault where
  deriving DecidableEq, Repr

/-- Why the machine has no such step. Each is safe: the spec says that the model has no such step, and nothing is
claimed of what comes after it. -/
inductive Refusal where
  /-- an operation that has no meaning in this model: raised by no arm now. Safe. -/
  | notModelled (mnemonic : String)
  /-- raised by every operation and port act when its issuer is not an agent that may issue it now
  (60_exceptions.md R291). Safe. -/
  | notPermitted (a : Agent)
  /-- raised by ACQUIRE when the issuer holds the lock already (44_engine_control.md R254). Safe. -/
  | alreadyHeld (l : Lock)
  /-- raised by RELEASE when the issuer does not hold the lock (44_engine_control.md R254). Safe. -/
  | notHeld (l : Lock)
  /-- raised by the seven data-format rows: "This list is closed: a model gives a meaning to these and refuses anything
  else" (30_encoding.md R112). Safe. -/
  | notAnOperation
  /-- raised by the step when the bytes at the port are no operation: "Codes not listed are reserved and refused"
  (30_encoding.md R112). Safe. -/
  | reservedCode
  deriving DecidableEq, Repr

/-- The outcome of a step or an operation. -/
abbrev Out := Host.Outcome State Fault Refusal

/-- A register file at reset (10_state.md R45): 30 fps, no drop-frame, everything else 0. -/
def Timecode.reset : Timecode :=
  { hh := 0, mm := 0, ss := 0, ff := 0, fps := .r30, df := false, cf := false, clk := false, bgf0 := false, bgf2 := false,
    uf1 := 0, uf2 := 0, uf3 := 0, uf4 := 0, uf5 := 0, uf6 := 0, uf7 := 0, uf8 := 0 }

/-- The raw fields of a register file at reset. -/
def RawFields.reset : RawFields := { df := false, hh := 0, mm := 0, ss := 0, ff := 0 }

/-- The status flags at reset (10_state.md R45). -/
def Status.reset : Status :=
  { underflow := false, rxOk := false, rxPerr := false, rxSyncErr := false, rxOvf := false, safetyCount := 0 }

/-- The divider registers at reset (10_state.md R45): DIV and DIV0 at `DIV0(30 fps)`, the periods at PERIOD_DEFAULT. -/
def Divider.reset (p : Params) : Divider :=
  { div := p.div0.at30, div0 := p.div0.at30, coarse := 0, fine := 0, calTgt := 0, calAct := 0,
    period := Config.periodDefault, periodAct := Config.periodDefault, dstate := .idle, tMain := none, tSafe := none }

/-- The block right after reset under given parameters (10_state.md R45, 70_reset_and_hazards.md R300, R302). -/
def State.resetWith (p : Params) : State :=
  { tx := Timecode.reset, rx := Timecode.reset, txLock := none, rxLock := none, divLock := none,
    mode := .halted, stopReq := false, syncph := p.syncphReset, st := Status.reset, dv := Divider.reset p,
    txq := [], rxq := [], echoq := [], rxHeld := none, lineOut := .low, lineWords := [], now := 0, par := p,
    agent := .host, result := .none, events := [], draws := 0, between := [], tears := [],
    newTx := RawFields.reset, newRx := RawFields.reset, inProgress := none, port := [], sched := [] }

/-- The block right after reset (10_state.md R45), at the default parameters of 00_scope.md R7. -/
def State.reset : State := State.resetWith Config.params

end Sys2Proof.Machine
end

