-- ==== Sys2Proof/Machine/Operands.lean ====
section
/-! DEFINITION. Operand forms: rates, decimal digits, the time of a register file as naturals, the stepping functions on
it, ASCII timecodes, raw fields, mode operands, and the decomposition of a calibration value. -/

namespace Sys2Proof.Machine

/-! ### Rates (10_state.md R24 to R26) -/

/-- The rate of a 3-bit code; 6 and 7 are not rates (R24). -/
def rateOfCode (code : BitVec 3) : Option Rate :=
  match code.toNat with
  | 0 => some .r30
  | 1 => some .r2997
  | 2 => some .r25
  | 3 => some .r2498
  | 4 => some .r24
  | 5 => some .r2398
  | _ => none

/-- The 3-bit code of a rate (R24). -/
def rateCode : Rate → BitVec 3
  | .r30 => 0
  | .r2997 => 1
  | .r25 => 2
  | .r2498 => 3
  | .r24 => 4
  | .r2398 => 5

/-- `N(fps)`, frame numbers per second (R25). -/
def framesPerSecond : Rate → Nat
  | .r30 | .r2997 => 30
  | .r25 | .r2498 => 25
  | .r24 | .r2398 => 24

/-- Drop-frame is allowed at 29.97 and 23.98 only (R26). -/
def allowsDropFrame : Rate → Bool
  | .r2997 | .r2398 => true
  | .r30 | .r25 | .r2498 | .r24 => false

/-- `DIV0(fps)` (43_clock_adjust.md R211). -/
def nominalDivider (t : DividerTable) : Rate → Int
  | .r30 => t.at30
  | .r2997 => t.at2997
  | .r25 => t.at25
  | .r2498 => t.at2498
  | .r24 => t.at24
  | .r2398 => t.at2398

/-! ### Times as naturals (40_timecode_ops.md R143) -/

/-- Hours, minutes, seconds and frame number as naturals. -/
structure Time where
  hh : Nat
  mm : Nat
  ss : Nat
  ff : Nat
  deriving DecidableEq, Repr

/-- The time a register file holds. -/
def Timecode.time (T : Timecode) : Time := ⟨T.hh.toNat, T.mm.toNat, T.ss.toNat, T.ff.toNat⟩

/-- A register file with another time, every other field kept. -/
def Timecode.setTime (T : Timecode) (t : Time) : Timecode :=
  { T with hh := BitVec.ofNat 6 t.hh, mm := BitVec.ofNat 7 t.mm, ss := BitVec.ofNat 7 t.ss, ff := BitVec.ofNat 5 t.ff }

/-- A time is legal at `n` frames a second (10_state.md R22). -/
abbrev Time.Legal (n : Nat) (t : Time) : Prop := t.hh < 24 ∧ t.mm < 60 ∧ t.ss < 60 ∧ t.ff < n

/-- The frame numbers that drop-frame skips: 0 and 1 of second 0 of a minute that is no multiple of 10 (10_state.md R23). -/
abbrev Time.Dropped (t : Time) : Prop := t.ss = 0 ∧ t.ff < 2 ∧ t.mm % 10 ≠ 0

/-- The carry chain of one frame forward (40_timecode_ops.md R134). -/
def carryFrame (n : Nat) (t : Time) : Time :=
  if t.ff + 1 ≥ n then
    if t.ss + 1 ≥ 60 then
      if t.mm + 1 ≥ 60 then
        if t.hh + 1 ≥ 24 then ⟨0, 0, 0, 0⟩ else ⟨t.hh + 1, 0, 0, 0⟩
      else ⟨t.hh, t.mm + 1, 0, 0⟩
    else ⟨t.hh, t.mm, t.ss + 1, 0⟩
  else ⟨t.hh, t.mm, t.ss, t.ff + 1⟩

/-- The forward skip: a dropped frame number becomes frame 2 (40_timecode_ops.md R132, R134). -/
def skipDropped (df : Bool) (t : Time) : Time := if df ∧ t.Dropped then { t with ff := 2 } else t

/-- NEXT_FRAME on a time (40_timecode_ops.md R134). -/
def nextTime (n : Nat) (df : Bool) (t : Time) : Time := skipDropped df (carryFrame n t)

/-- The borrow chain of one frame back (40_timecode_ops.md R135). -/
def borrowFrame (n : Nat) (t : Time) : Time :=
  if t.ff > 0 then ⟨t.hh, t.mm, t.ss, t.ff - 1⟩
  else if t.ss > 0 then ⟨t.hh, t.mm, t.ss - 1, n - 1⟩
  else if t.mm > 0 then ⟨t.hh, t.mm - 1, 59, n - 1⟩
  else if t.hh > 0 then ⟨t.hh - 1, 59, 59, n - 1⟩
  else ⟨23, 59, 59, n - 1⟩

/-- PREV_FRAME on a time (40_timecode_ops.md R135): frame 2 is the first of a skipped minute. -/
def prevTime (n : Nat) (df : Bool) (t : Time) : Time :=
  borrowFrame n (if df ∧ t.ss = 0 ∧ t.ff ≤ 2 ∧ t.mm % 10 ≠ 0 then { t with ff := 0 } else t)

/-- NEXT_FRAME on a register file. -/
def Timecode.next (T : Timecode) : Timecode := T.setTime (nextTime (framesPerSecond T.fps) T.df T.time)

/-- PREV_FRAME on a register file. -/
def Timecode.prev (T : Timecode) : Timecode := T.setTime (prevTime (framesPerSecond T.fps) T.df T.time)

/-- `k` times NEXT_FRAME (30_encoding.md R114, 44_engine_control.md R257). -/
def Timecode.stepN : Nat → Timecode → Timecode
  | 0, T => T
  | k + 1, T => Timecode.stepN k T.next

/-- `k` times PREV_FRAME (30_encoding.md R114). -/
def Timecode.prevN : Nat → Timecode → Timecode
  | 0, T => T
  | k + 1, T => Timecode.prevN k T.prev

/-- The value a register file can be loaded with (40_timecode_ops.md R133): legal at its rate, and no frame number that
its drop-frame counting skips. -/
abbrev Timecode.Loadable (T : Timecode) (t : Time) : Prop :=
  t.Legal (framesPerSecond T.fps) ∧ ¬(T.df = true ∧ t.Dropped)

/-- The register file is legal (R22), DF-legal (R23), and its drop-frame flag is allowed at its rate (R26). -/
abbrev Timecode.LegalFile (T : Timecode) : Prop :=
  T.Loadable T.time ∧ (T.df = true → allowsDropFrame T.fps = true)

/-! ### Raw form (30_encoding.md R105) -/

/-- The raw fields of a register file. -/
def Timecode.rawFields (T : Timecode) : RawFields := { df := T.df, hh := T.hh, mm := T.mm, ss := T.ss, ff := T.ff }

/-- `RAW32` of five fields. -/
def RawFields.word (r : RawFields) : Word :=
  Raw32.word { df := r.df, hh := r.hh.setWidth 7, mm := r.mm.setWidth 8, ss := r.ss.setWidth 8, ff := r.ff.setWidth 8 }

/-- `RAW32(T)`. -/
def Timecode.raw (T : Timecode) : Word := T.rawFields.word

/-- What an unlocked evaluation of RAW32 finds: each field old or new (40_timecode_ops.md R142). -/
def tornFields (old new : RawFields) (m : Tear) : RawFields where
  df := if m.df then new.df else old.df
  hh := if m.hh then new.hh else old.hh
  mm := if m.mm then new.mm else old.mm
  ss := if m.ss then new.ss else old.ss
  ff := if m.ff then new.ff else old.ff

/-- The double read of 40_timecode_ops.md R142: repeat two unlocked reads until they agree. When the reads listed are
spent the writer has paused, and both reads find the present value. -/
def stableRead (old new : RawFields) : List (Tear × Tear) → Word
  | [] => old.word
  | (a, b) :: rest =>
    if (tornFields old new a).word = (tornFields old new b).word then (tornFields old new a).word
    else stableRead old new rest

/-! ### Decimal digits and ASCII (30_encoding.md R95, R106) -/

/-- The BCD units digit. -/
def unitsDigit (v : Nat) : Nibble := BitVec.ofNat 4 (v % 10)

/-- The BCD tens digit in a field of `w` bits. -/
def tensDigit (w v : Nat) : BitVec w := BitVec.ofNat w (v / 10)

/-- `d2`: two decimal digits as characters (40_timecode_ops.md R138). -/
def twoDigits (v : Nat) : List Byte := [BitVec.ofNat 8 (0x30 + v / 10), BitVec.ofNat 8 (0x30 + v % 10)]

/-- The character ':'. -/
def colon : Byte := 0x3A#8

/-- The character '.'. -/
def dot : Byte := 0x2E#8

/-- `ASCII(T)` (40_timecode_ops.md R138). -/
def Timecode.ascii (T : Timecode) : List Byte :=
  twoDigits T.time.hh ++ [colon] ++ twoDigits T.time.mm ++ [colon] ++ twoDigits T.time.ss
    ++ [if T.df then dot else colon] ++ twoDigits T.time.ff

/-- The value of a digit character '0' to '9'. -/
def digitValue (c : Byte) : Option Nat := if 0x30 ≤ c.toNat ∧ c.toNat ≤ 0x39 then some (c.toNat - 0x30) else none

/-- The value of two digit characters. -/
def numOfDigits (a b : Byte) : Option Nat :=
  match digitValue a, digitValue b with
  | some x, some y => some (10 * x + y)
  | _, _ => none

/-- The time that a well-formed string of 11 characters spells (40_timecode_ops.md R139). -/
def parseAscii : List Byte → Option Time
  | [h1, h0, c2, m1, m0, c5, s1, s0, c8, f1, f0] =>
    if c2 = colon ∧ c5 = colon ∧ (c8 = colon ∨ c8 = dot) then
      match numOfDigits h1 h0, numOfDigits m1 m0, numOfDigits s1 s0, numOfDigits f1 f0 with
      | some hh, some mm, some ss, some ff => some ⟨hh, mm, ss, ff⟩
      | _, _, _, _ => none
    else none
  | _ => none

/-! ### User-bit formats (30_encoding.md R107) -/

/-- How the 32 user bits are to be read; no operation acts on it (10_state.md R27). -/
inductive UserBitFormat where
  | digits | characters | dateAndZone | pageLine
  deriving DecidableEq, Repr

/-- The format that the pair (`bgf2`, `bgf0`) selects (30_encoding.md R107). -/
def userBitFormat (bgf2 bgf0 : Bool) : UserBitFormat :=
  match bgf2, bgf0 with
  | false, false => .digits
  | false, true => .characters
  | true, false => .dateAndZone
  | true, true => .pageLine

/-! ### Mode operands (44_engine_control.md R251, R253) -/

/-- The running mode an operand names, when it names one: Run, Monitor, or Jamming(n) with 1 ≤ n ≤ JAM_MAX. -/
def runningMode (jamMax : Nat) : ModeArg → Option Mode
  | .run => some .run
  | .monitor => some .monitor
  | .jamming n => if 1 ≤ n ∧ n ≤ jamMax then some (.jamming n) else none
  | .halted => none
  | .notAMode _ => none

/-! ### Calibration values (43_clock_adjust.md R213 to R217) -/

/-- `CAL_DIR` as a number (R214). -/
def directionSign : Direction → Int
  | .up => 1
  | .down => -1

/-- `k = int(abs(c))` (R213). -/
def calInt (c : Rat) : Nat := c.num.natAbs / c.den

/-- The numerator of `f = frac(abs(c))` over the denominator of `c` (R213). -/
def calFracNum (c : Rat) : Nat := c.num.natAbs % c.den

/-- `f = frac(abs(c))` (R213). -/
def calFrac (c : Rat) : Rat := mkRat (calFracNum c) c.den

/-- `s = sgn(c)` (R213). -/
def calSgn (c : Rat) : Int := c.num.sign

/-- `COARSE` for a calibration value (R215). -/
def coarseOf (d : Direction) (c : Rat) : Int := directionSign d * calSgn c * (calInt c : Int)

/-- `FINE` of an on phase (R218). -/
def fineOf (d : Direction) (c : Rat) : Int := directionSign d * calSgn c

/-- `on_duration(Q, frac(abs(c)))` (R217): `Q * f` rounded down, or, on a platform that chooses so, up. -/
def onDuration (r : OnRounding) (q : Nat) (c : Rat) : Nat :=
  match r with
  | .floor => q * calFracNum c / c.den
  | .platform =>
    if (q * calFracNum c) % c.den ≠ 0 ∧ Config.onRoundsUp q (calFrac c) = true then q * calFracNum c / c.den + 1
    else q * calFracNum c / c.den

/-- `on` of R217, bounded by the period. -/
def onTime (r : OnRounding) (q : Nat) (c : Rat) : Nat := min (onDuration r q c) q

/-- `off` of R217. -/
def offTime (r : OnRounding) (q : Nat) (c : Rat) : Nat := q - onTime r q c

/-- The rational and the period that MICRO_ADJUST and LOAD_CAL accept (R215, R232): a finite number with
`abs(c) ≤ CAL_MAX`, and a period above 0. -/
def acceptCal (p : Params) (c : CalArg) (period : Int) : Option (Rat × Nat) :=
  match c with
  | .finite c => if -p.calMax ≤ c ∧ c ≤ p.calMax ∧ 0 < period then some (c, period.toNat) else none
  | .nan | .posInf | .negInf => none

end Sys2Proof.Machine
end

