-- ==== Sys2Proof/Machine/Flags.lean ====
section
/-! DEFINITION. Flag computations: the rate family, parity, the decoder's checks, and the updates of the status flags. -/

namespace Sys2Proof.Machine

/-- `popcount` of a word (00_scope.md R9). -/
def popcount (w : Word) : Nat := ((List.range 32).map fun i => (w.getLsbD i).toNat).sum

/-- `SYNC_POP`: the one bits of the sync word (41_ltc_encoder.md R173). -/
def syncPop : Nat := 13

/-- `fam25(fps)`, the 25 fps family (30_encoding.md R99). -/
def fam25 (p : Params) : Rate → Bool
  | .r25 => true
  | .r2498 => p.fam25Includes2498
  | .r30 | .r2997 | .r24 | .r2398 => false

/-- The one bits of an 80-bit frame: both data words and the sync word (30_encoding.md R100). -/
def framePop (w0 w1 : Word) : Nat := popcount w0 + popcount w1 + syncPop

/-- `parity_ok` (42_ltc_decoder.md R193). -/
def parityOk (w0 w1 : Word) : Bool := framePop w0 w1 % 2 == 0

/-- `MODE ≠ Halted`: the engine is running (10_state.md R33). -/
def running (m : Mode) : Bool :=
  match m with
  | .halted => false
  | .run | .monitor | .jamming _ => true

/-- The flags after a decode that commits or is rejected by its frame number (42_ltc_decoder.md R194). -/
def Status.decoded (st : Status) (ok perr : Bool) : Status := { st with rxOk := ok, rxPerr := perr }

/-- The flags after the sync check of DEC_PACKET3 and DEC_FRAME80 (42_ltc_decoder.md R195, R196): a wrong sync field also
clears RX_OK. -/
def Status.syncChecked (st : Status) (good : Bool) : Status :=
  if good then { st with rxSyncErr := false } else { st with rxSyncErr := true, rxOk := false }

/-- The flags after RXOVF (60_exceptions.md R281). -/
def Status.overflowed (st : Status) : Status := { st with rxOvf := true }

/-- The flags after UNDERFLOW entry (60_exceptions.md R273). -/
def Status.underflowed (st : Status) : Status := { st with underflow := true }

/-- The flags after SAFETY_TIMEOUT (60_exceptions.md R278). -/
def Status.safetyCounted (st : Status) : Status := { st with safetyCount := st.safetyCount + 1 }

/-- The sticky flags that START clears (44_engine_control.md R251). -/
def Status.cleared (st : Status) : Status := { st with underflow := false, rxOvf := false, safetyCount := 0 }

end Sys2Proof.Machine
end

