-- ==== Sys2Proof/Machine/Agents.lean ====
section
/-! DEFINITION. Which agent may issue which operation (60_exceptions.md R289 to R291). -/

namespace Sys2Proof.Machine

/-- The rows of 60_exceptions.md R291's table group the operations so. -/
inductive OpClass where
  /-- TO_RAW, TO_ASCII, READ_RAW_STABLE -/
  | snapshot
  /-- SET_FPS_DF, LOAD_TC, FROM_ASCII, SET_UB, SET_FLAGS -/
  | setting
  /-- NEXT_FRAME, PREV_FRAME -/
  | stepping
  /-- ENC_PACKET -/
  | encoding
  /-- TX_FRAME, the decoder's operations, RX_POLL, MICRO_ADJUST, JAM_LOAD -/
  | engine
  | cancel
  | timerFire
  | loadCal
  | start
  | stop
  | setMode
  | acquire (l : Lock)
  | release (l : Lock)
  | linePop
  | linePush
  /-- a data format: no operation, so issued by nobody -/
  | format
  deriving DecidableEq, Repr

/-- The class of each operation. -/
def opClass : Instr → OpClass
  | .toRaw _ | .toAscii _ | .readRawStable _ => .snapshot
  | .setFpsDf _ _ _ | .loadTc _ _ _ _ _ | .fromAscii _ _ | .setUb _ _ _ _ _ _ _ _ _ | .setFlags _ _ _ _ _ => .setting
  | .nextFrame _ | .prevFrame _ => .stepping
  | .encPacket _ => .encoding
  | .txFrame | .decPacket _ _ | .decPacket3 _ _ _ | .decFrame80 _ _ _ | .rxPoll | .microAdjust _ _ | .jamLoad _ => .engine
  | .cancelDither => .cancel
  | .mainFire | .safeFire => .timerFire
  | .loadCal _ _ => .loadCal
  | .start _ => .start
  | .stop => .stop
  | .setMode _ => .setMode
  | .acquire l => .acquire l
  | .release l => .release l
  | .lineTxPop => .linePop
  | .lineRxPush _ => .linePush
  | .ltcW0 _ | .ltcW1 _ | .p3X0 _ | .p3X1 _ _ | .p3X2 _ | .sync16 | .raw32 _ => .format

/-- RT: every operation except LINE_TX_POP, LINE_RX_PUSH, MAIN_FIRE, SAFE_FIRE, LOAD_CAL. -/
def rtMay : OpClass → Bool
  | .linePop | .linePush | .timerFire | .loadCal | .format => false
  | .snapshot | .setting | .stepping | .encoding | .engine | .cancel | .start | .stop | .setMode
  | .acquire _ | .release _ => true

/-- UI: snapshots, locks on TX and RX, setting changes, mode changes. -/
def uiMay : OpClass → Bool
  | .snapshot | .setting | .stop | .setMode => true
  | .acquire l | .release l => decide (l ≠ .div)
  | .stepping | .encoding | .engine | .cancel | .timerFire | .loadCal | .start | .linePop | .linePush | .format => false

/-- LINE_TX: LINE_TX_POP only. -/
def lineTxMay (c : OpClass) : Bool := decide (c = .linePop)

/-- LINE_RX: LINE_RX_PUSH only. -/
def lineRxMay (c : OpClass) : Bool := decide (c = .linePush)

/-- TIMER: MAIN_FIRE, SAFE_FIRE, and CANCEL_DITHER after an underflow. -/
def timerMay (underflow : Bool) : OpClass → Bool
  | .timerFire => true
  | .cancel => underflow
  | .snapshot | .setting | .stepping | .encoding | .engine | .loadCal | .start | .stop | .setMode
  | .acquire _ | .release _ | .linePop | .linePush | .format => false

/-- HOST: while the engine is stopped every timecode operation of 40_timecode_ops.md, and START; LOAD_CAL, whose own rule says
what it does while the engine runs (43_clock_adjust.md R232, notes/assumptions/7.md); and STOP. -/
def hostMay (stopped : Bool) : OpClass → Bool
  | .snapshot | .setting | .stepping | .start => stopped
  | .stop | .loadCal => true
  | .encoding | .engine | .cancel | .timerFire | .setMode | .acquire _ | .release _ | .linePop | .linePush | .format => false

/-- Whether an agent may issue an operation of a class in a mode, with the UNDERFLOW flag as given (R291). -/
def agentMay (a : Agent) (m : Mode) (underflow : Bool) (c : OpClass) : Bool :=
  match a with
  | .rt => rtMay c
  | .ui => uiMay c
  | .lineTx => lineTxMay c
  | .lineRx => lineRxMay c
  | .timer => timerMay underflow c
  | .host => hostMay (!running m) c

/-- Whether the agent whose step is being taken may issue this operation now. -/
def permits (i : Instr) (s : State) : Bool := agentMay s.agent s.mode s.st.underflow (opClass i)

/-- An agent that may issue the operation in the reset state: it stands at the port when a word of the
opcode table is placed there (`State.withFetchWord`). -/
def usualIssuer (i : Instr) : Agent :=
  match opClass i with
  | .linePop => .lineTx
  | .linePush => .lineRx
  | .timerFire => .timer
  | .loadCal | .format => .host
  | .snapshot | .setting | .stepping | .encoding | .engine | .cancel | .start | .stop | .setMode
  | .acquire _ | .release _ => .rt

end Sys2Proof.Machine
end

