-- ==== Sys2Proof/Machine/Ops.lean ====
section
/-! DEFINITION. The named operations over the state that the meanings share: register files, locks, queues, results,
the taking of an event, the shape every operation has (permitted, held or done), the entry of UNDERFLOW, and what the
START of a new session restores after it. -/

namespace Sys2Proof.Machine

/-! ### Register files -/

/-- The register file an operand names. -/
def State.tc (s : State) : File → Timecode
  | .tx => s.tx
  | .rx => s.rx

/-- Write a register file. -/
def State.setTc (s : State) (t : File) (v : Timecode) : State :=
  match t with
  | .tx => { s with tx := v }
  | .rx => { s with rx := v }

/-- The raw fields of a register file as the operation in progress leaves them (40_timecode_ops.md R142). -/
def State.newRaw (s : State) : File → RawFields
  | .tx => s.newTx
  | .rx => s.newRx

/-! ### Status and divider registers -/

/-- Write the status flags. -/
def State.setSt (s : State) (v : Status) : State := { s with st := v }

/-- Write the divider registers. -/
def State.setDv (s : State) (v : Divider) : State := { s with dv := v }

/-! ### Locks (10_state.md R29, 44_engine_control.md R254) -/

/-- The holder of a lock. -/
def State.holder (s : State) : Lock → Option Agent
  | .tx => s.txLock
  | .rx => s.rxLock
  | .div => s.divLock

/-- Write a lock. -/
def State.setHolder (s : State) (l : Lock) (h : Option Agent) : State :=
  match l with
  | .tx => { s with txLock := h }
  | .rx => { s with rxLock := h }
  | .div => { s with divLock := h }

/-- The lock of a register file. -/
def fileLock : File → Lock
  | .tx => .tx
  | .rx => .rx

/-- The issuer can take the lock for the span of one operation: it is free, or the issuer holds it already (the lock is
re-entrant for its holder, R254). -/
def State.canLock (s : State) (l : Lock) : Bool := s.holder l == none || s.holder l == some s.agent

/-! ### Results and events -/

/-- Deliver a result. -/
def State.answer (s : State) (r : Result) : State := { s with result := r }

/-- Take an event of 60_exceptions.md R270: it is recorded, in order; its effect is the raising operation's (R271). -/
def State.raise (s : State) (e : Event) : State := { s with events := s.events ++ [e] }

/-- The start of an operation: nothing delivered and nothing raised yet. -/
def State.opened (s : State) : State := { s with result := .none, events := [] }

/-- The operation has no step now (00_scope.md R9, "hold"): nothing changes, and its issuer sees that it is not done. -/
def State.heldUp (s : State) : State := { s with result := .held, events := [] }

/-- The shape of every operation: refused when its issuer may not issue it (60_exceptions.md R291), held while it has no
step (00_scope.md R9), else one atomic step (00_scope.md R11). -/
def issue (i : Instr) (ready : Bool) (body : State → State) (s : State) : Out :=
  if permits i s then
    if ready then .next (body s.opened) else .next s.heldUp
  else .refused (.notPermitted s.agent)

/-! ### Queues (20_memory.md R63) -/

/-- `Space(q)` of a queue of depth `d`. -/
def space (d : Nat) (q : List Word) : Nat := d - q.length

/-- `Push(q, w)`; a word that finds no room is not stored. -/
def pushWord (d : Nat) (q : List Word) (w : Word) : List Word := if q.length < d then q ++ [w] else q

/-- Push a packet word into TXQ. Under the guard of TX_FRAME there is always room (20_memory.md R64). -/
def State.pushTx (s : State) (w : Word) : State := { s with txq := pushWord Config.txqDepth s.txq w }

/-- Push an echo word; when ECHOQ is full the push is dropped (20_memory.md R66). -/
def State.pushEcho (s : State) (w : Word) : State := { s with echoq := pushWord s.par.echoqDepth s.echoq w }

/-! ### The line side -/

/-- UNDERFLOW entry, its first step, in interrupt context and without a lock (60_exceptions.md R273): MODE, STOPREQ and
the sticky flag, the line machines off and the output low. The later CANCEL_DITHER is a step of RT or TIMER. -/
def State.enterUnderflow (s : State) : State :=
  ({ s with mode := .halted, stopReq := true, st := s.st.underflowed, lineOut := .low } : State).raise .underflow

/-- LINE_TX_POP while the engine runs (41_ltc_encoder.md R178): the head of TXQ goes to the line encoder, or the queue is
found empty and UNDERFLOW is taken. -/
def State.lineTxPop (s : State) : State :=
  match s.txq with
  | w :: q => ({ s with txq := q, lineWords := s.lineWords ++ [w] } : State).answer (.word w)
  | [] => s.enterUnderflow

/-- LINE_RX_PUSH (42_ltc_decoder.md R198): the word enters RXQ, or is lost with RXOVF. -/
def State.lineRxPush (s : State) (w : Word) : State :=
  if s.rxq.length < s.par.rxqDepth then { s with rxq := s.rxq ++ [w] }
  else (s.setSt s.st.overflowed).raise .rxOverflow

/-- The two LINE sources are enabled exactly while the engine runs (60_exceptions.md R284, R290): STOP and UNDERFLOW
disable them (44_engine_control.md R252, 60_exceptions.md R273), START enables them (44_engine_control.md R251). -/
def lineEnabled (s : State) : Bool := running s.mode

/-- One LINE step that falls between two sub-steps of another agent's operation, where its source is enabled. -/
def State.lineStep (s : State) (x : LineStep) : State :=
  if lineEnabled s then
    match x with
    | .pop => s.lineTxPop
    | .push w => s.lineRxPush w
  else s

/-- The LINE steps at one interleaving point, in order. -/
def State.lineSteps (s : State) : List LineStep → State
  | [] => s
  | x :: xs => (s.lineStep x).lineSteps xs

/-- The LINE steps between the two pops of RX_POLL: "LINE_RX may push between the pops" (42_ltc_decoder.md R197), and no
other agent has a step there. -/
def State.lineRxSteps (s : State) : List LineStep → State
  | [] => s
  | .push w :: xs => (s.lineRxPush w).lineRxSteps xs
  | .pop :: xs => s.lineRxSteps xs

/-- Push the words of a packet in order. There is an interleaving point before each push and after the last
(41_ltc_encoder.md R176: an UNDERFLOW "can be taken by LINE_TX at any point, also between two pushes"). Once UNDERFLOW has been
taken no further word is pushed: "the packet is left partly pushed" (60_exceptions.md R286, notes/assumptions/18.md). -/
def pushPacket : List Word → List (List LineStep) → State → State
  | [], points, s => s.lineSteps (points.headD [])
  | w :: ws, points, s =>
    let s1 := s.lineSteps (points.headD [])
    if s1.mode = s.mode then pushPacket ws points.tail (s1.pushTx w) else s1

/-! ### A session -/

/-- What the START of a new session clears and reloads before the prefill (44_engine_control.md R251): STOPREQ, the
sticky flags, the sync phase, TXQ and RXQ, and the divider from the rate of TX. It is the only way out of the state
that UNDERFLOW and STOP leave (60_exceptions.md R274). The words that an RX_POLL under way has popped already are no words of
RXQ any more, and stay with it: the model's choice (notes/assumptions/20.md). -/
def State.clearSession (s : State) : State :=
  { s with
    stopReq := false
    st := s.st.cleared
    syncph := s.par.syncphReset
    txq := []
    rxq := []
    dv := { s.dv with
      div0 := nominalDivider s.par.div0 s.tx.fps
      coarse := 0
      fine := 0
      div := nominalDivider s.par.div0 s.tx.fps
      dstate := .idle
      tMain := none
      tSafe := none } }

end Sys2Proof.Machine
end

