-- ==== Sys2Proof/Machine/ClockAdjust.lean ====
section
/-! DEFINITION. The dithered clock divider (43_clock_adjust.md). -/

namespace Sys2Proof.Machine

/-- BEGIN_CYCLE (43_clock_adjust.md R218) at time `now`: the pending target and period govern the cycle; with nothing to
dither no timer is armed. -/
def beginCycle (p : Params) (now : Nat) (d : Divider) : Divider :=
  let on := onTime p.onRounding d.period d.calTgt
  if on = 0 then
    { d with calAct := d.calTgt, periodAct := d.period, fine := 0, div := d.div0 + d.coarse, dstate := .idle,
             tMain := none, tSafe := none }
  else
    { d with calAct := d.calTgt, periodAct := d.period, fine := fineOf p.calDir d.calTgt,
             div := d.div0 + d.coarse + fineOf p.calDir d.calTgt, dstate := .on,
             tMain := some (now + on), tSafe := some (now + on + p.safetyMargin) }

/-- MICRO_ADJUST on the divider registers while the engine runs (43_clock_adjust.md R215, R224): the coarse part acts now,
a cycle in flight keeps its fine part and its timers, and from Idle a cycle begins. -/
def adjustDivider (p : Params) (now : Nat) (c : Rat) (period : Nat) (d : Divider) : Divider :=
  let d1 := { d with calTgt := c, period := period, coarse := coarseOf p.calDir c,
                     div := d.div0 + coarseOf p.calDir c + d.fine }
  if d.dstate = .idle then beginCycle p now d1 else d1

/-- CANCEL_DITHER on the divider registers (43_clock_adjust.md R223): the timers and the phase only. -/
def cancelDivider (d : Divider) : Divider := { d with tMain := none, tSafe := none, dstate := .idle }

/-- The restore of DIV at the end of an on phase, or by the guard: `FINE <- 0 ; DIV <- DIV0 + COARSE`, both timers off. -/
def restoreDivider (d : Divider) : Divider := { d with tMain := none, tSafe := none, fine := 0, div := d.div0 + d.coarse }

/-- MAIN_FIRE with its timer due (43_clock_adjust.md R219, R221). -/
def mainFireDivider (p : Params) (now : Nat) (d : Divider) : Divider :=
  match d.dstate with
  | .idle => d
  | .on =>
    let off := offTime p.onRounding d.periodAct d.calAct
    if off = 0 then beginCycle p now (restoreDivider d)
    else { restoreDivider d with dstate := .off, tMain := some (now + off), tSafe := some (now + off + p.safetyMargin) }
  | .off => beginCycle p now { d with tMain := none, tSafe := none }

/-- MICRO_ADJUST with its operands (43_clock_adjust.md R215, R216): out of range it is refused with CAL_RANGE; while the
engine is stopped it is CANCEL_DITHER. -/
def State.microAdjust (s : State) (c : CalArg) (period : Int) : State :=
  match acceptCal s.par c period with
  | none => s.raise .calRange
  | some (c, q) =>
    if running s.mode then s.setDv (adjustDivider s.par s.now c q s.dv) else s.setDv (cancelDivider s.dv)

/-- MAIN_FIRE (43_clock_adjust.md R219, R221): a callback whose handle is `none` is stale and does nothing. -/
def State.mainFire (s : State) : State :=
  match s.dv.tMain with
  | none => s
  | some _ => s.setDv (mainFireDivider s.par s.now s.dv)

/-- SAFE_FIRE (43_clock_adjust.md R222): counted and logged, the divider restored and Idle, then the last request applied
again. A callback whose handle is `none` is stale and does nothing (R227). -/
def State.safeFire (s : State) : State :=
  match s.dv.tSafe with
  | none => s
  | some _ =>
    let s1 := (s.setSt s.st.safetyCounted).raise .safetyTimeout
    (s1.setDv { restoreDivider s.dv with dstate := .idle }).microAdjust (.finite s.dv.calTgt) s.dv.period

/-- LOAD_CAL (43_clock_adjust.md R232): out of range it is refused with CAL_RANGE, and a running engine refuses it without
a change. -/
def State.loadCal (s : State) (c : CalArg) (period : Int) : State :=
  match acceptCal s.par c period with
  | none => s.raise .calRange
  | some (c, q) => if running s.mode then s else s.setDv { s.dv with calTgt := c, period := q }

/-- MICRO_ADJUST needs DIVLOCK unless its operands are refused, and RT issues none between STOPREQ and the halt
(10_state.md R36). What becomes of one that waits at RT's port when STOPREQ rises is the model's choice
(notes/assumptions/22.md). -/
def microAdjustReady (c : CalArg) (period : Int) (s : State) : Bool :=
  (acceptCal s.par c period).isNone || (s.canLock .div && !(running s.mode && s.stopReq))

/-- MICRO_ADJUST c, P (R215): an omitted period is the current PERIOD. -/
def execMicroAdjust (c : CalArg) (period : Option Int) (s : State) : Out :=
  issue (.microAdjust c period) (microAdjustReady c (period.getD s.dv.period) s)
    (fun s => s.microAdjust c (period.getD s.dv.period)) s

/-- A timer callback is enabled when its deadline has come; with its handle `none` it is stale, and runs to no effect. -/
def timerDue (deadline : Option Nat) (now : Nat) : Bool :=
  match deadline with
  | none => true
  | some d => decide (d ≤ now)

/-- MAIN_FIRE (R219, R221). -/
def execMainFire (s : State) : Out :=
  issue .mainFire (timerDue s.dv.tMain s.now && s.canLock .div) State.mainFire s

/-- SAFE_FIRE (R222). -/
def execSafeFire (s : State) : Out :=
  issue .safeFire (timerDue s.dv.tSafe s.now && s.canLock .div) State.safeFire s

/-- CANCEL_DITHER (R223), which DIVLOCK alone guards: FINE is kept, in a running engine too (R227), where R212 then waits for the
next cycle or START (notes/assumptions/24.md). -/
def execCancelDither (s : State) : Out :=
  issue .cancelDither (s.canLock .div) (fun s => s.setDv (cancelDivider s.dv)) s

/-- LOAD_CAL takes DIVLOCK only where it writes (R232). -/
def loadCalReady (c : CalArg) (period : Int) (s : State) : Bool :=
  (acceptCal s.par c period).isNone || running s.mode || s.canLock .div

/-- LOAD_CAL c, P (R232): "Operands: as MICRO_ADJUST", so an omitted period is the current PERIOD. -/
def execLoadCal (c : CalArg) (period : Option Int) (s : State) : Out :=
  issue (.loadCal c period) (loadCalReady c (period.getD s.dv.period) s) (fun s => s.loadCal c (period.getD s.dv.period)) s

end Sys2Proof.Machine
end

