-- ==== Sys2Proof/Machine/Decoder.lean ====
section
/-! DEFINITION. The LTC decoder (42_ltc_decoder.md): fields, checks, the commit into RX, the three entry points, the
receive poll, and the line decoder's push. -/

namespace Sys2Proof.Machine

/-- A decoded decimal field: `10 * tens + units`, whatever they hold (30_encoding.md R95). -/
def decimal {w : Nat} (tens : BitVec w) (units : Nibble) : Nat := 10 * tens.toNat + units.toNat

/-- The time of `DEC_FIELDS` (42_ltc_decoder.md R191). -/
def decTime (w0 w1 : Word) : Time :=
  let f := LtcW0.ofWord w0
  let g := LtcW1.ofWord w1
  ⟨decimal g.hhTens g.hhUnits, decimal g.mmTens g.mmUnits, decimal f.ssTens f.ssUnits, decimal f.ffTens f.ffUnits⟩

/-- `DEC_FIELDS` committed to a register file, its rate kept (42_ltc_decoder.md R191, R194). -/
def decCommit (p : Params) (w0 w1 : Word) (R : Timecode) : Timecode :=
  let f := LtcW0.ofWord w0
  let g := LtcW1.ofWord w1
  { R.setTime (decTime w0 w1) with
    df := f.df
    cf := f.cf
    clk := g.f58
    bgf0 := if fam25 p R.fps then f.f27 else g.f43
    bgf2 := if fam25 p R.fps then g.f43 else g.f59
    uf1 := f.uf1
    uf2 := f.uf2
    uf3 := f.uf3
    uf4 := f.uf4
    uf5 := g.uf5
    uf6 := g.uf6
    uf7 := g.uf7
    uf8 := g.uf8 }

/-- `frame_ok` (42_ltc_decoder.md R192). -/
def frameOk (w0 w1 : Word) (fps : Rate) : Bool := decide ((decTime w0 w1).ff < framesPerSecond fps)

/-- PARITY_ERR is recorded when the parity of a decode is odd (60_exceptions.md R276). -/
def State.reportParity (s : State) (good : Bool) : State := if good then s else s.raise .parityErr

/-- DEC_PACKET (42_ltc_decoder.md R194): parity is published and does not block the commit; an impossible frame number
rejects, and nothing of RX changes. -/
def State.decPacket (s : State) (w0 w1 : Word) : State :=
  let good := parityOk w0 w1
  let s1 := s.reportParity good
  if frameOk w0 w1 s.rx.fps then
    ((s1.setTc .rx (decCommit s.par w0 w1 s.rx)).setSt (s.st.decoded true (!good))).answer (.bool true)
  else
    ((s1.setSt (s.st.decoded false (!good))).raise .decodeReject).answer (.bool false)

/-- A wrong sync field (60_exceptions.md R277): no parity is looked at, RX is unchanged. -/
def State.syncReject (s : State) : State := ((s.setSt (s.st.syncChecked false)).raise .syncErr).answer (.bool false)

/-- DEC_PACKET3 (42_ltc_decoder.md R195). -/
def State.decPacket3 (s : State) (x0 x1 x2 : Word) : State :=
  if lowHalf x0 = syncPattern ∧ highHalf x2 = syncPattern then
    (s.setSt (s.st.syncChecked true)).decPacket
      (wordOfHalves (highHalf x0) (lowHalf x1)) (wordOfHalves (highHalf x1) (lowHalf x2))
  else s.syncReject

/-- DEC_FRAME80 (42_ltc_decoder.md R196). -/
def State.decFrame80 (s : State) (w0 w1 : Word) (s16 : Half) : State :=
  if s16 = syncPattern then (s.setSt (s.st.syncChecked true)).decPacket w0 w1 else s.syncReject

/-- RX_POLL (42_ltc_decoder.md R197): with two words or more in RXQ the first two are popped, LINE_RX pushing between the
pops, and then decoded. The pops take no lock; where RX.lock is another agent's, the DEC_PACKET after them holds, and the
popped words wait for it. -/
def State.rxPoll (s : State) : State :=
  match s.rxHeld with
  | some (w0, w1) => (({ s with rxHeld := none } : State).decPacket w0 w1).answer .none
  | none =>
    match s.rxq with
    | w0 :: w1 :: q =>
      let s1 := ({ s with rxq := w1 :: q } : State).lineRxSteps (s.between.headD [])
      let s2 : State := { s1 with rxq := s1.rxq.tail }
      if s2.canLock .rx then (s2.decPacket w0 w1).answer .none
      else ({ s2 with rxHeld := some (w0, w1) } : State).answer .held
    | _ => s

/-- DEC_PACKET w0, w1 (R194). -/
def execDecPacket (w0 w1 : Word) (s : State) : Out :=
  issue (.decPacket w0 w1) (s.canLock .rx) (fun s => s.decPacket w0 w1) s

/-- DEC_PACKET3 x0, x1, x2 (R195). -/
def execDecPacket3 (x0 x1 x2 : Word) (s : State) : Out :=
  issue (.decPacket3 x0 x1 x2) (s.canLock .rx) (fun s => s.decPacket3 x0 x1 x2) s

/-- DEC_FRAME80 w0, w1, s16 (R196). -/
def execDecFrame80 (w0 w1 : Word) (s16 : Half) (s : State) : Out :=
  issue (.decFrame80 w0 w1 s16) (s.canLock .rx) (fun s => s.decFrame80 w0 w1 s16) s

/-- RX_POLL can take its next sub-step: one under way needs RX.lock, and nothing else, to go on; a new one needs the engine
running and no stop requested (R197, 10_state.md R36). -/
def rxPollReady (s : State) : Bool :=
  match s.rxHeld with
  | some _ => s.canLock .rx
  | none => running s.mode && !s.stopReq

/-- RX_POLL (R197). -/
def execRxPoll (s : State) : Out := issue .rxPoll (rxPollReady s) State.rxPoll s

/-- LINE_RX_PUSH w (R198): at any time at which LINE_RX is enabled (notes/assumptions/19.md). -/
def execLineRxPush (w : Word) (s : State) : Out := issue (.lineRxPush w) (lineEnabled s) (fun s => s.lineRxPush w) s

end Sys2Proof.Machine
end

