-- ==== Sys2Proof/Machine/Encoder.lean ====
section
/-! DEFINITION. The LTC encoder (41_ltc_encoder.md): data words, parity, packets, the per-frame transmit operation, and
the line encoder's pop. -/

namespace Sys2Proof.Machine

/-- The fields of `V0` (41_ltc_encoder.md R171), the parity position of W0 clear. -/
def encFields0 (p : Params) (S : Timecode) : LtcW0 where
  ffUnits := unitsDigit S.time.ff
  uf1     := S.uf1
  ffTens  := tensDigit 2 S.time.ff
  df      := S.df
  cf      := S.cf
  uf2     := S.uf2
  ssUnits := unitsDigit S.time.ss
  uf3     := S.uf3
  ssTens  := tensDigit 3 S.time.ss
  f27     := if fam25 p S.fps then S.bgf0 else false
  uf4     := S.uf4

/-- The fields of `V1` (41_ltc_encoder.md R171), the parity position of W1 clear. -/
def encFields1 (p : Params) (S : Timecode) : LtcW1 where
  mmUnits := unitsDigit S.time.mm
  uf5     := S.uf5
  mmTens  := tensDigit 3 S.time.mm
  f43     := if fam25 p S.fps then S.bgf2 else S.bgf0
  uf6     := S.uf6
  hhUnits := unitsDigit S.time.hh
  uf7     := S.uf7
  hhTens  := tensDigit 2 S.time.hh
  f58     := S.clk
  f59     := if fam25 p S.fps then false else S.bgf2
  uf8     := S.uf8

/-- `ENC_DATA(S)` (41_ltc_encoder.md R171). -/
def encData (p : Params) (S : Timecode) : Word × Word := ((encFields0 p S).word, (encFields1 p S).word)

/-- `ENC_PARITY(S)` (41_ltc_encoder.md R173): the parity bit makes the 80 bits hold an even number of ones; it is frame
bit 59 in the 25 fps family and frame bit 27 outside it. -/
def encParity (p : Params) (S : Timecode) : Word × Word :=
  let V := encData p S
  if parityOk V.1 V.2 then V
  else if fam25 p S.fps then (V.1, V.2 ||| bitAt true 27)
  else (V.1 ||| bitAt true 27, V.2)

/-- The 2-word packet (30_encoding.md R101). -/
def packet2 (w0 w1 : Word) : List Word := [w0, w1]

/-- The 3-word packet (30_encoding.md R102): sync, the 64 data bits, sync. -/
def packet3 (w0 w1 : Word) : List Word :=
  [wordOfHalves syncPattern (lowHalf w0), wordOfHalves (highHalf w0) (lowHalf w1), wordOfHalves (highHalf w1) syncPattern]

/-- `ENC_PACKET` of a snapshot (41_ltc_encoder.md R174). -/
def encPacketOf (p : Params) (S : Timecode) (sendSync : Bool) : List Word :=
  let W := encParity p S
  if sendSync then packet3 W.1 W.2 else packet2 W.1 W.2

/-- The 32 bits of a word in the order in which the line encoder sends them, bit 0 first (20_memory.md R67). -/
def lineBits (w : Word) : List Bool := (List.range 32).map w.getLsbD

/-- The 16 sync bits in line order (30_encoding.md R96). -/
def syncBits : List Bool := (List.range 16).map syncPattern.getLsbD

/-- The 64 data bits of a frame in line order (30_encoding.md R91). -/
def dataBits (w0 w1 : Word) : List Bool := lineBits w0 ++ lineBits w1

/-- The 80 bits of a frame, `F[0]` first (30_encoding.md R90). -/
def frameBits (w0 w1 : Word) : List Bool := dataBits w0 w1 ++ syncBits

/-- The words of `k` frames from a value and a sync phase, as TX_FRAME pushes them: each packet in the form of the phase,
then the phase toggles and the value advances (41_ltc_encoder.md R176, R179). -/
def streamWords (p : Params) : Nat → Timecode → Bool → List Word
  | 0, _, _ => []
  | k + 1, S, phase => encPacketOf p S phase ++ streamWords p k S.next (!phase)

/-- The words that the next TX_FRAME needs room for: 2, and 1 more when a sync word is pending (R176). -/
def wordsNeeded (syncph : Bool) : Nat := if syncph then 3 else 2

/-- The steps of TX_FRAME under TX.lock (41_ltc_encoder.md R176): the echo and the packet are of one snapshot, then the
sync phase toggles and TX advances. -/
def State.txFrame (s : State) : State :=
  let S := s.tx
  let s1 := s.pushEcho S.raw
  let s2 := pushPacket (encPacketOf s.par S s.syncph) s.between s1
  { s2 with syncph := !s.syncph, tx := S.next }.answer .none

/-- The refill test (41_ltc_encoder.md R177): `Count(TXQ) < TX_WATERMARK - SYNCPH`. -/
def belowWatermark (s : State) : Bool := decide (s.txq.length + (if s.syncph then 1 else 0) < Config.txWatermark)

/-- ENC_PACKET send_sync (R174). -/
def execEncPacket (sendSync : Bool) (s : State) : Out :=
  issue (.encPacket sendSync) (s.canLock .tx) (fun s => s.answer (.words (encPacketOf s.par s.tx sendSync))) s

/-- TX_FRAME can run: the engine runs, no stop is requested, TXQ has room for the packet, and TX.lock can be taken (R176). -/
def txFrameReady (s : State) : Bool :=
  running s.mode && !s.stopReq && decide (wordsNeeded s.syncph ≤ space Config.txqDepth s.txq) && s.canLock .tx

/-- TX_FRAME (R176). -/
def execTxFrame (s : State) : Out := issue .txFrame (txFrameReady s) State.txFrame s

/-- LINE_TX_POP (R178): enabled while the engine runs. -/
def execLineTxPop (s : State) : Out := issue .lineTxPop (lineEnabled s) State.lineTxPop s

end Sys2Proof.Machine
end

