-- ==== Sys2Proof/Machine/EngineControl.lean ====
section
/-! DEFINITION. Engine control (44_engine_control.md): START with its prefill, STOP, SET_MODE, the locks, JAM_LOAD. -/

namespace Sys2Proof.Machine

/-- The prefill of START (44_engine_control.md R251, 70_reset_and_hazards.md R305): TX_FRAMEs until TXQ is no longer below
the watermark. Each pushes two words or more, so TX_WATERMARK frames of fuel are enough. No LINE step falls into it. -/
def prefill : Nat → State → State
  | 0, s => s
  | k + 1, s => if belowWatermark s then prefill k s.txFrame else s

/-- START in a mode, from the stopped engine (44_engine_control.md R251). -/
def State.startIn (s : State) (m : Mode) : State :=
  let s1 := prefill Config.txWatermark ({ s.clearSession with between := [] } : State)
  let s2 : State := { s1 with mode := m, lineOut := .driven, between := s.between }
  (s2.microAdjust (.finite s2.dv.calTgt) s2.dv.period).answer (.bool true)

/-- START (R251): refused with false while running, and for an operand that is no running mode. -/
def State.start (s : State) (arg : ModeArg) : State :=
  if running s.mode then s.answer (.bool false)
  else
    match runningMode s.par.jamMax arg with
    | some m => s.startIn m
    | none => s.answer (.bool false)

/-- START needs TX.lock and DIVLOCK where it begins a session. -/
def startReady (arg : ModeArg) (s : State) : Bool :=
  running s.mode || (runningMode s.par.jamMax arg).isNone || (s.canLock .tx && s.canLock .div)

/-- The first half of STOP (44_engine_control.md R252). -/
def State.requestStop (s : State) : State := { s with stopReq := true }

/-- The second half of STOP, carried out by the RT agent on seeing STOPREQ (R252), and what is left of UNDERFLOW's entry
(60_exceptions.md R273): timers cancelled, line machines off and output low, MODE Halted last. -/
def State.finishStop (s : State) : State :=
  { s.setDv (cancelDivider s.dv) with lineOut := .low, mode := .halted }

/-- SET_MODE (44_engine_control.md R253). -/
def State.setModeTo (s : State) (arg : ModeArg) : State :=
  if running s.mode then
    match runningMode s.par.jamMax arg with
    | some m => ({ s with mode := m } : State).answer (.bool true)
    | none => s.answer (.bool false)
  else s.answer (.bool false)

/-- Whether JAM_LOAD accepts the value in RX (44_engine_control.md R257): legal at TX's rate, and DF-legal. -/
abbrev JamLegal (R T : Timecode) : Prop :=
  R.time.Legal (framesPerSecond T.fps) ∧ (R.df = false ∨ allowsDropFrame T.fps = true) ∧ ¬(R.df = true ∧ R.time.Dropped)

/-- TX loaded from RX (44_engine_control.md R257): the value, `df` and `clk`, and nothing else. -/
def jamCopy (R T : Timecode) : Timecode := { T.setTime R.time with df := R.df, clk := R.clk }

/-- JAM_LOAD under both locks (44_engine_control.md R257). -/
def State.jamLoad (s : State) (k : Nat) : State :=
  if JamLegal s.rx s.tx then (s.setTc .tx (Timecode.stepN k (jamCopy s.rx s.tx))).answer (.bool true)
  else (s.raise .loadReject).answer (.bool false)

/-- START mode (R251). -/
def execStart (mode : ModeArg) (s : State) : Out :=
  issue (.start mode) (startReady mode s) (fun s => s.start mode) s

/-- STOP (R252): the request; `Act.stopCheck` is the RT agent's half. -/
def execStop (s : State) : Out := issue .stop true State.requestStop s

/-- SET_MODE mode (R253). -/
def execSetMode (mode : ModeArg) (s : State) : Out := issue (.setMode mode) true (fun s => s.setModeTo mode) s

/-- ACQUIRE L (R254): held while another agent holds the lock, refused to its holder. -/
def execAcquire (l : Lock) (s : State) : Out :=
  if permits (.acquire l) s && (s.holder l == some s.agent) then .refused (.alreadyHeld l)
  else issue (.acquire l) (s.holder l == none) (fun s => s.setHolder l (some s.agent)) s

/-- RELEASE L (R254): refused to an agent that does not hold the lock. -/
def execRelease (l : Lock) (s : State) : Out :=
  if permits (.release l) s && !(s.holder l == some s.agent) then .refused (.notHeld l)
  else issue (.release l) true (fun s => s.setHolder l none) s

/-- JAM_LOAD k (R257). -/
def execJamLoad (k : Nat) (s : State) : Out :=
  issue (.jamLoad k) (s.canLock .rx && s.canLock .tx) (fun s => s.jamLoad k) s

end Sys2Proof.Machine
end

