-- ==== Sys2Proof/Machine/Formats.lean ====
section
/-! DEFINITION. The seven data-format rows of the opcode table. Their words are what operations read and write; none is an
operation: "This list is closed: a model gives a meaning to these and refuses anything else" (30_encoding.md R112). -/

namespace Sys2Proof.Machine

/-- A data format presented as an operation (30_encoding.md R112). -/
def refuseFormat (_ : State) : Out := .refused .notAnOperation

/-- LTC_W0 (R92) is no operation. -/
def execLtcW0 (_ : LtcW0) (s : State) : Out := refuseFormat s

/-- LTC_W1 (R93) is no operation. -/
def execLtcW1 (_ : LtcW1) (s : State) : Out := refuseFormat s

/-- P3_X0 (R102) is no operation. -/
def execP3X0 (_ : Half) (s : State) : Out := refuseFormat s

/-- P3_X1 (R102) is no operation. -/
def execP3X1 (_ _ : Half) (s : State) : Out := refuseFormat s

/-- P3_X2 (R102) is no operation. -/
def execP3X2 (_ : Half) (s : State) : Out := refuseFormat s

/-- SYNC16 (R96) is no operation. -/
def execSync16 (s : State) : Out := refuseFormat s

/-- RAW32 (R105) is no operation. -/
def execRaw32 (_ : Raw32) (s : State) : Out := refuseFormat s

end Sys2Proof.Machine
end

