-- ==== Sys2Proof/Machine/TimecodeOps.lean ====
section
/-! DEFINITION. The timecode value operations (40_timecode_ops.md). Each takes the file's lock for its span (R130), but
READ_RAW_STABLE. -/

namespace Sys2Proof.Machine

/-- REVALIDATE(T) (40_timecode_ops.md R132): a frame number that the new rate no longer has becomes a free value below
N, and a dropped one becomes frame 2. -/
def revalidate (k : Nat) (T : Timecode) : Timecode :=
  let n := framesPerSecond T.fps
  let t := if T.time.ff ≥ n then { T.time with ff := Config.freeNat k % n } else T.time
  T.setTime (skipDropped T.df t)

/-- Whether REVALIDATE draws. -/
def revalidateDraws (T : Timecode) : Bool := decide (T.time.ff ≥ framesPerSecond T.fps)

/-- The rate that SET_FPS_DF accepts (R131): a rate, with drop-frame only where it is allowed. -/
def acceptRate (code : BitVec 3) (df : Bool) : Option Rate :=
  match rateOfCode code with
  | some fps => if df = false ∨ allowsDropFrame fps = true then some fps else none
  | none => none

/-- SET_FPS_DF under the lock (R131). -/
def State.setFpsDf (s : State) (t : File) (code : BitVec 3) (df : Bool) : State :=
  match acceptRate code df with
  | some fps =>
    let T : Timecode := { s.tc t with fps := fps, df := df }
    let s' := s.setTc t (revalidate s.draws T)
    { s' with draws := if revalidateDraws T then s.draws + 1 else s.draws }.answer (.bool true)
  | none => (s.raise .setFpsReject).answer (.bool false)

/-- LOAD_TC under the lock (R133), and what FROM_ASCII returns through. -/
def State.loadTime (s : State) (t : File) (v : Time) : State :=
  if (s.tc t).Loadable v then (s.setTc t ((s.tc t).setTime v)).answer (.bool true)
  else (s.raise .loadReject).answer (.bool false)

/-- FROM_ASCII under the lock (R139): a malformed string is refused like an illegal value (60_exceptions.md R280). -/
def State.fromAscii (s : State) (t : File) (str : List Byte) : State :=
  match parseAscii str with
  | some v => s.loadTime t v
  | none => (s.raise .loadReject).answer (.bool false)

/-- SET_UB (R140). -/
def Timecode.setUserBits (T : Timecode) (n1 n2 n3 n4 n5 n6 n7 n8 : Nibble) : Timecode :=
  { T with uf1 := n1, uf2 := n2, uf3 := n3, uf4 := n4, uf5 := n5, uf6 := n6, uf7 := n7, uf8 := n8 }

/-- SET_FLAGS (R141). -/
def Timecode.setFlags (T : Timecode) (cf clk bgf0 bgf2 : Bool) : Timecode :=
  { T with cf := cf, clk := clk, bgf0 := bgf0, bgf2 := bgf2 }

/-- SET_FPS_DF T, fps, df (R131, R132). -/
def execSetFpsDf (t : File) (fps : BitVec 3) (df : Bool) (s : State) : Out :=
  issue (.setFpsDf t fps df) (s.canLock (fileLock t)) (fun s => s.setFpsDf t fps df) s

/-- LOAD_TC T, hh, mm, ss, ff (R133). -/
def execLoadTc (t : File) (hh mm ss ff : Nat) (s : State) : Out :=
  issue (.loadTc t hh mm ss ff) (s.canLock (fileLock t)) (fun s => s.loadTime t ⟨hh, mm, ss, ff⟩) s

/-- NEXT_FRAME T (R134). -/
def execNextFrame (t : File) (s : State) : Out :=
  issue (.nextFrame t) (s.canLock (fileLock t)) (fun s => s.setTc t (s.tc t).next) s

/-- PREV_FRAME T (R135). -/
def execPrevFrame (t : File) (s : State) : Out :=
  issue (.prevFrame t) (s.canLock (fileLock t)) (fun s => s.setTc t (s.tc t).prev) s

/-- `n` times a frame step under one hold of the file's lock (30_encoding.md R114): the lock is free or the issuer's own at the
start, and nobody else has it until the last; a count of 0 is no operation. -/
def underOneHold (i : Instr) (t : File) (n : Nat) (stepped : Timecode) (s : State) : Out :=
  if n = 0 then .next s.opened else issue i (s.canLock (fileLock t)) (fun s => s.setTc t stepped) s

/-- TO_RAW T (R137). -/
def execToRaw (t : File) (s : State) : Out :=
  issue (.toRaw t) (s.canLock (fileLock t)) (fun s => s.answer (.word (s.tc t).raw)) s

/-- TO_ASCII T (R138). -/
def execToAscii (t : File) (s : State) : Out :=
  issue (.toAscii t) (s.canLock (fileLock t)) (fun s => s.answer (.chars (s.tc t).ascii)) s

/-- FROM_ASCII T, s (R139). -/
def execFromAscii (t : File) (str : List Byte) (s : State) : Out :=
  issue (.fromAscii t str) (s.canLock (fileLock t)) (fun s => s.fromAscii t str) s

/-- SET_UB T, n1, ..., n8 (R140). -/
def execSetUb (t : File) (n1 n2 n3 n4 n5 n6 n7 n8 : Nibble) (s : State) : Out :=
  issue (.setUb t n1 n2 n3 n4 n5 n6 n7 n8) (s.canLock (fileLock t))
    (fun s => s.setTc t ((s.tc t).setUserBits n1 n2 n3 n4 n5 n6 n7 n8)) s

/-- SET_FLAGS T, cf, clk, bgf0, bgf2 (R141). -/
def execSetFlags (t : File) (cf clk bgf0 bgf2 : Bool) (s : State) : Out :=
  issue (.setFlags t cf clk bgf0 bgf2) (s.canLock (fileLock t)) (fun s => s.setTc t ((s.tc t).setFlags cf clk bgf0 bgf2)) s

/-- READ_RAW_STABLE T (R142): the one operation that reads T without its lock, and finds each field as it is or as the
operation in progress leaves it. -/
def execReadRawStable (t : File) (s : State) : Out :=
  issue (.readRawStable t) true (fun s => s.answer (.word (stableRead (s.tc t).rawFields (s.newRaw t) s.tears))) s

end Sys2Proof.Machine
end

