-- ==== Sys2Proof/Machine/Dispatch.lean ====
section
/-! DEFINITION. One arm per row of the opcode table (30_encoding.md R112): the meaning of each operation. -/

namespace Sys2Proof.Machine

def exec (i : Instr) (s : State) : Host.Outcome State Fault Refusal :=
  match i with
  | .setFpsDf t fps df => Sys2Proof.Machine.execSetFpsDf t fps df s
  | .loadTc t hh mm ss ff => Sys2Proof.Machine.execLoadTc t hh mm ss ff s
  | .nextFrame t => Sys2Proof.Machine.execNextFrame t s
  | .prevFrame t => Sys2Proof.Machine.execPrevFrame t s
  | .toRaw t => Sys2Proof.Machine.execToRaw t s
  | .toAscii t => Sys2Proof.Machine.execToAscii t s
  | .fromAscii t str => Sys2Proof.Machine.execFromAscii t str s
  | .setUb t n1 n2 n3 n4 n5 n6 n7 n8 => Sys2Proof.Machine.execSetUb t n1 n2 n3 n4 n5 n6 n7 n8 s
  | .setFlags t cf clk bgf0 bgf2 => Sys2Proof.Machine.execSetFlags t cf clk bgf0 bgf2 s
  | .readRawStable t => Sys2Proof.Machine.execReadRawStable t s
  | .encPacket b => Sys2Proof.Machine.execEncPacket b s
  | .txFrame => Sys2Proof.Machine.execTxFrame s
  | .decPacket w0 w1 => Sys2Proof.Machine.execDecPacket w0 w1 s
  | .decPacket3 x0 x1 x2 => Sys2Proof.Machine.execDecPacket3 x0 x1 x2 s
  | .decFrame80 w0 w1 s16 => Sys2Proof.Machine.execDecFrame80 w0 w1 s16 s
  | .rxPoll => Sys2Proof.Machine.execRxPoll s
  | .microAdjust c p => Sys2Proof.Machine.execMicroAdjust c p s
  | .mainFire => Sys2Proof.Machine.execMainFire s
  | .safeFire => Sys2Proof.Machine.execSafeFire s
  | .cancelDither => Sys2Proof.Machine.execCancelDither s
  | .loadCal c p => Sys2Proof.Machine.execLoadCal c p s
  | .start m => Sys2Proof.Machine.execStart m s
  | .stop => Sys2Proof.Machine.execStop s
  | .setMode m => Sys2Proof.Machine.execSetMode m s
  | .acquire l => Sys2Proof.Machine.execAcquire l s
  | .release l => Sys2Proof.Machine.execRelease l s
  | .jamLoad k => Sys2Proof.Machine.execJamLoad k s
  | .lineTxPop => Sys2Proof.Machine.execLineTxPop s
  | .lineRxPush w => Sys2Proof.Machine.execLineRxPush w s
  | .ltcW0 f => Sys2Proof.Machine.execLtcW0 f s
  | .ltcW1 f => Sys2Proof.Machine.execLtcW1 f s
  | .p3X0 w => Sys2Proof.Machine.execP3X0 w s
  | .p3X1 v w => Sys2Proof.Machine.execP3X1 v w s
  | .p3X2 v => Sys2Proof.Machine.execP3X2 v s
  | .sync16 => Sys2Proof.Machine.execSync16 s
  | .raw32 f => Sys2Proof.Machine.execRaw32 f s

end Sys2Proof.Machine
end

