-- ==== Sys2Proof/Machine/Turn.lean ====
section
/-! DEFINITION. One turn of an agent at the block's ports (20_memory.md R62, 60_exceptions.md R285, R290): what it takes
from the port, the operation it decodes and runs, the acts that are no operations, and what is left for later. -/

namespace Sys2Proof.Machine

/-- The first item of an agent at the ports, and the ports without it. An agent's items go in its order, so one that is held,
as RT's TX_FRAME, RX_POLL or MICRO_ADJUST is after STOPREQ, keeps those behind it waiting (notes/assumptions/22.md). -/
def takeFirst (a : Agent) : List Item → Option (Item × List Item)
  | [] => none
  | it :: rest =>
    if it.agent = a then some (it, rest)
    else
      match takeFirst a rest with
      | some (x, rest') => some (x, it :: rest')
      | none => none

/-- `Pop(ECHOQ)` (20_memory.md R62, R63): UI only (60_exceptions.md R291); with the queue empty it has no step now. -/
def echoPop (s : State) : Out :=
  if s.agent = .ui then
    match s.echoq with
    | w :: q => .next (({ s.opened with echoq := q } : State).answer (.word w))
    | [] => .next s.heldUp
  else .refused (.notPermitted s.agent)

/-- The RT loop runs: the engine runs and no stop is requested (44_engine_control.md R259, 10_state.md R36). -/
def looping (s : State) : Bool := running s.mode && !s.stopReq

/-- The RX_POLL of a pass of the RT loop; a loop that does not run issues none, but one under way goes on. -/
def poll (s : State) : Out :=
  if s.agent = .rt then
    if looping s || s.rxHeld.isSome then exec .rxPoll s else .next s.opened
  else .refused (.notPermitted s.agent)

/-- The RT loop issues TX_FRAME when the engine runs, no stop is requested, and TXQ is below the watermark
(41_ltc_encoder.md R177, 44_engine_control.md R259). -/
def refillDue (s : State) : Bool := looping s && belowWatermark s

/-- The refill test of the RT loop and the TX_FRAME under it. -/
def refill (s : State) : Out :=
  if s.agent = .rt then
    if refillDue s then exec .txFrame s else .next s.opened
  else .refused (.notPermitted s.agent)

/-- The RT loop's look at STOPREQ: when it is 1, the second half of STOP, which takes DIVLOCK (44_engine_control.md R252). -/
def stopCheck (s : State) : Out :=
  if s.agent = .rt then
    if s.stopReq then
      if s.canLock .div then .next s.opened.finishStop else .next s.heldUp
    else .next s.opened
  else .refused (.notPermitted s.agent)

/-- The HOST builds a stopped block anew (70_reset_and_hazards.md R300, 60_exceptions.md R291): every register of
10_state.md R45 at its reset value. What is outside the block goes on: the parameters, the time, the ports and the
schedule, what the line encoder has been given, and the count of free draws. -/
def rebuild (s : State) : Out :=
  if s.agent = .host ∧ running s.mode = false then
    .next { State.resetWith s.par with
      now := s.now, lineWords := s.lineWords, agent := s.agent, draws := s.draws, between := s.between, tears := s.tears,
      newTx := s.newTx, newRx := s.newRx, port := s.port, sched := s.sched }
  else .refused (.notPermitted s.agent)

/-- `STEP T, n` (30_encoding.md R114), by an issuer of NEXT_FRAME. -/
def stepCount (t : File) (n : Nat) (s : State) : Out :=
  underOneHold (.nextFrame t) t n (Timecode.stepN n (s.tc t)) s

/-- `PREV_FRAME T, count` (30_encoding.md R114), by an issuer of PREV_FRAME. -/
def prevFrameCount (t : File) (count : Nat) (s : State) : Out :=
  underOneHold (.prevFrame t) t count (Timecode.prevN count (s.tc t)) s

/-- Carry out what an agent has at the port. Bytes that are no operation are refused (30_encoding.md R112). -/
def perform (act : Act) (s : State) : Out :=
  match act with
  | .op form bytes =>
    match decode form bytes with
    | some (i, _) => exec i s
    | none => .refused .reservedCode
  | .echoPop => echoPop s
  | .poll => poll s
  | .refill => refill s
  | .stopCheck => stopCheck s
  | .stepCount t n => stepCount t n s
  | .prevFrameCount t n => prevFrameCount t n s
  | .rebuild => rebuild s

/-- READ_RAW_STABLE, the one operation that may run beside an operation in progress (40_timecode_ops.md R142). -/
def isUnlockedRead : Act → Bool
  | .op form bytes =>
    match decode form bytes with
    | some (.readRawStable _, _) => true
    | _ => false
  | .echoPop | .poll | .refill | .stopCheck | .stepCount _ _ | .prevFrameCount _ _ | .rebuild => false

/-- An agent may take its step: no other agent's operation is in progress, or the step is an unlocked read. So an operation that
a read has found in progress is the next one that is carried out, and every execution is an interleaving of whole operations
(20_memory.md R72). -/
def mayAct (s : State) (act : Act) : Bool :=
  decide (s.inProgress = none ∨ s.inProgress = some s.agent) || isUnlockedRead act

/-- The agent whose operation is in progress beside a turn: the one that an earlier read found so, else the one that the turn
names. -/
def writerOf (s : State) (t : Turn) : Option Agent :=
  match s.inProgress with
  | some b => some b
  | none => t.writer

/-- The state that the operation in progress leaves (40_timecode_ops.md R142): that of the first item of the agent named, when
it is another agent than the one whose turn it is and its item has a step now; else no operation is in progress. A rebuild is no
operation: all registers take their reset values together (70_reset_and_hazards.md R301). -/
def afterWriter (s : State) (writer : Option Agent) : State :=
  match writer with
  | none => s
  | some b =>
    if b = s.agent then s
    else
      match takeFirst b s.port with
      | none => s
      | some (it, _) =>
        if it.act = .rebuild then s
        else
          match perform it.act { s with agent := b, between := [], tears := [] } with
          | .next s' => s'
          | .fault _ => s
          | .refused _ => s

/-- The state in which an agent's turn begins: time has passed, and the turn's inputs are in place. -/
def State.openTurn (s : State) (t : Turn) (rest : List Turn) : State :=
  let s1 : State := { s with
    sched := rest, now := s.now + t.elapsed, agent := t.agent, between := t.between, tears := t.tears }
  let w := afterWriter s1 (writerOf s t)
  { s1 with newTx := w.tx.rawFields, newRx := w.rx.rawFields }

/-- Whose operation is in progress after an act: the writer's, when the act was an unlocked read and the writer changes a raw
field; after any other act none. -/
def progressAfter (before : State) (act : Act) (writer : Option Agent) : Option Agent :=
  if isUnlockedRead act ∧ (before.newTx ≠ before.tx.rawFields ∨ before.newRx ≠ before.rx.rawFields) then writer else none

/-- What is left after an act: a held one stays at the port, with nothing else in progress than before. -/
def State.closeTurn (after before : State) (rest : List Item) (progress : Option Agent) : State :=
  if after.result = .held then { after with port := before.port, inProgress := before.inProgress }
  else { after with port := rest, inProgress := progress }

/-- One turn: the agent's first item at the ports is carried out, or held while another agent's operation is in progress; only
time passes when there is no item. -/
def runTurn (t : Turn) (rest : List Turn) (s : State) : Out :=
  let s1 := s.openTurn t rest
  match takeFirst t.agent s1.port with
  | none => .next s1.opened
  | some (it, port') =>
    if mayAct s1 it.act then
      match perform it.act s1 with
      | .next s2 => .next (s2.closeTurn s1 port' (progressAfter s1 it.act (writerOf s t)))
      | .fault e => .fault e
      | .refused e => .refused e
    else .next s1.heldUp

/-- What one pass of the RT loop puts at RT's port (44_engine_control.md R259): the poll, the refill, and the look at
STOPREQ. What the Jam and PID software ask comes between, as operations of RT. -/
def loopPass : List Item := [⟨.rt, .poll⟩, ⟨.rt, .refill⟩, ⟨.rt, .stopCheck⟩]

/-- A word of the opcode table placed at the port of an agent that may issue it, with the next turn for that agent, and no
other agent's operation in progress. -/
def placeTableWord (s : State) (nbits w : Nat) : State :=
  let form := tableForm nbits w
  let bytes := tableBytes nbits w
  let a := match decode form bytes with
    | some (i, _) => usualIssuer i
    | none => .host
  { s with inProgress := none, port := ⟨a, .op form bytes⟩ :: s.port, sched := ⟨a, 0, [], none, []⟩ :: s.sched }

end Sys2Proof.Machine
end

