-- ==== Sys2Proof/Machine/Step.lean ====
section
/-! DEFINITION. The step of the machine: the next turn of the schedule, or, when nothing is scheduled, no change. -/

namespace Sys2Proof.Machine

/-- One step. The block fetches nothing (10_state.md R34): the schedule says whose turn it is, and the agent's operation
waits at the port. With an empty schedule nothing is issued and nothing changes. -/
def step (s : State) : Host.Outcome State Fault Refusal :=
  match s.sched with
  | [] => .next s
  | t :: rest => runTurn t rest s

/-- The state with a word of spec/opcode_table.json as the very next operation (notes/assumptions/4.md). -/
def State.withFetchWord (s : State) (nbits w : Nat) : State := placeTableWord s nbits w

end Sys2Proof.Machine
end

