-- ==== Sys2Proof/Machine/Pseudo.lean ====
section
/-! DEFINITION. The pseudo-operations of 30_encoding.md R114 as the operations they expand to, and the status strings of
60_exceptions.md R295 as what a monitor reads from the state. Neither adds a behaviour to the block. -/

namespace Sys2Proof.Machine

/-- The pseudo-operations (30_encoding.md R114). -/
inductive PseudoOp where
  | prevFrameCount (t : File) (count : Nat)
  | stepCount (t : File) (n : Nat)
  | toRawPacket (sendSync : Bool)
  | fromRawPacket2 (w0 w1 : Word)
  | fromRawPacket3 (x0 x1 x2 : Word)
  | snapshot (t : File) (reads : List Instr)
  | cloneTxFromRx
  deriving DecidableEq, Repr

/-- An operation as an item of a port (20_memory.md R62). -/
def opAct (i : Instr) : Act := .op i.form (encode i)

/-- What a pseudo-operation (R114) puts at its issuer's port. The counted steps are one act each, under one hold of the file's
lock; SNAPSHOT is "the source's explicit acquire…read…release". -/
def PseudoOp.expand : PseudoOp → List Act
  | .prevFrameCount t count => [.prevFrameCount t count]
  | .stepCount t n => [.stepCount t n]
  | .toRawPacket b => [opAct (.encPacket b)]
  | .fromRawPacket2 w0 w1 => [opAct (.decPacket w0 w1)]
  | .fromRawPacket3 x0 x1 x2 => [opAct (.decPacket3 x0 x1 x2)]
  | .snapshot t reads => [opAct (.acquire (fileLock t))] ++ reads.map opAct ++ [opAct (.release (fileLock t))]
  | .cloneTxFromRx => [opAct (.jamLoad 0)]

/-- The JAM_LOAD that the Jam software issues: "the Jam software passes `JAM_OFFSET`" (44_engine_control.md R257). -/
def jamSoftwareLoad (p : Params) : Instr := .jamLoad p.jamOffset

/-- How far the divider stands from its nominal value, as a fraction of the bit clock: `DIV - DIV0` steps of `DIV_STEP`
(43_clock_adjust.md R211). -/
def State.bitClockOffset (s : State) : Rat := ((s.dv.div - s.dv.div0 : Int) : Rat) * s.par.divStep

/-- What the status display can show of the block (60_exceptions.md R295); the "CAL" badge is the PID software's. -/
inductive StatusText where
  | underflowError
  | jamming (n : Nat)
  | rxBadge
  deriving DecidableEq, Repr

/-- The status strings in force (60_exceptions.md R295). -/
def statusTexts (s : State) : List StatusText :=
  (if s.st.underflow then [.underflowError] else [])
    ++ match s.mode with
       | .jamming n => [.jamming n]
       | .monitor => [.rxBadge]
       | .halted | .run => []

end Sys2Proof.Machine
end

