-- ==== Sys2Proof/Safety.lean ====
section
/-! DEFINITION. What every reachable state satisfies, in the terms that statements use: the invariants of 10_state.md R22,
R33, R39, R41, R63 and 60_exceptions.md R291, and what a statement about reception may assume (60_exceptions.md R281). -/

namespace Sys2Proof.Machine

/-- Each queue holds at most its depth (20_memory.md R63). -/
abbrev QueuesFit (s : State) : Prop :=
  s.txq.length ≤ Config.txqDepth ∧ s.rxq.length ≤ s.par.rxqDepth ∧ s.echoq.length ≤ s.par.echoqDepth

/-- TX is legal, DF-legal, and counts drop-frame only where its rate allows it (10_state.md R22, R23, R26). -/
abbrev TxLegal (s : State) : Prop := s.tx.LegalFile

/-- RX's frame number is one of its rate: all that an accepted decode promises (42_ltc_decoder.md R200). -/
abbrev RxFrameLegal (s : State) : Prop := s.rx.time.ff < framesPerSecond s.rx.fps

/-- A mode is legal: a countdown lies in 1 to JAM_MAX (10_state.md R33). -/
def modeLegal (jamMax : Nat) : Mode → Bool
  | .jamming n => decide (1 ≤ n ∧ n ≤ jamMax)
  | .halted | .run | .monitor => true

/-- The divider is its nominal value and its two offsets, each in its range (43_clock_adjust.md R212); an on phase has a
fine offset, an off phase none. -/
abbrev DividerConsistent (s : State) : Prop :=
  s.dv.div = s.dv.div0 + s.dv.coarse + s.dv.fine ∧ s.dv.fine.natAbs ≤ 1 ∧ s.dv.coarse.natAbs ≤ calInt s.par.calMax ∧
  (s.dv.dstate = .on → s.dv.fine ≠ 0) ∧ (s.dv.dstate = .off → s.dv.fine = 0)

/-- While the engine runs the fine offset is there exactly in an on phase (10_state.md R39, 43_clock_adjust.md R212). The one step
that leaves it is a CANCEL_DITHER of RT in an on phase, which keeps FINE (R223, R227): notes/assumptions/24.md. -/
abbrev FineFollowsPhase (s : State) : Prop := running s.mode = true → (s.dv.fine ≠ 0 ↔ s.dv.dstate = .on)

/-- After UNDERFLOW the engine is stopped, with the stop requested, until START (60_exceptions.md R273, R274). -/
abbrev UnderflowHalts (s : State) : Prop := s.st.underflow = true → running s.mode = false ∧ s.stopReq = true

/-- A stopped engine has no cycle in flight (10_state.md R39), but between the two steps of UNDERFLOW's entry
(60_exceptions.md R273, R284). -/
abbrev StoppedIsIdle (s : State) : Prop :=
  running s.mode = false → s.st.underflow = false → s.dv.dstate = .idle

/-- Both timers are armed in a cycle, SAFETY_MARGIN apart, and none outside one (10_state.md R41). -/
abbrev TimersPaired (s : State) : Prop :=
  (s.dv.dstate = .idle → s.dv.tMain = none ∧ s.dv.tSafe = none) ∧
  (s.dv.dstate ≠ .idle → s.dv.tMain ≠ none ∧ s.dv.tSafe = s.dv.tMain.map (· + s.par.safetyMargin))

/-- The calibration values are in range and the periods positive (43_clock_adjust.md R215). -/
abbrev CalInRange (s : State) : Prop :=
  (-s.par.calMax ≤ s.dv.calTgt ∧ s.dv.calTgt ≤ s.par.calMax) ∧ (-s.par.calMax ≤ s.dv.calAct ∧ s.dv.calAct ≤ s.par.calMax) ∧
  0 < s.dv.period ∧ 0 < s.dv.periodAct

/-- The line output is low exactly while the engine is stopped (44_engine_control.md R252, 70_reset_and_hazards.md R302). -/
abbrev LineLowIffStopped (s : State) : Prop := s.lineOut = .low ↔ running s.mode = false

/-- Who may hold a lock: never an interrupt context, never TIMER across operations, never HOST, and UI never
DIVLOCK (60_exceptions.md R291, 70_reset_and_hazards.md R317). -/
def mayHold (l : Lock) : Agent → Bool
  | .rt => true
  | .ui => decide (l ≠ .div)
  | .lineTx | .lineRx | .timer | .host => false

/-- Every lock is free or held by an agent that may hold it. -/
abbrev LocksDisciplined (s : State) : Prop :=
  s.txLock.all (mayHold .tx) = true ∧ s.rxLock.all (mayHold .rx) = true ∧ s.divLock.all (mayHold .div) = true

/-- The invariant of the block. -/
structure Inv (s : State) : Prop where
  params  : s.par.Ok
  queues  : QueuesFit s
  tx      : TxLegal s
  rx      : RxFrameLegal s
  mode    : modeLegal s.par.jamMax s.mode = true
  divider : DividerConsistent s
  timers  : TimersPaired s
  halted  : UnderflowHalts s
  stopped : StoppedIsIdle s
  cal     : CalInRange s
  line    : LineLowIffStopped s
  locks   : LocksDisciplined s

/-- Two data words with bit `k` of their 64 bits flipped, as a line error flips it (42_ltc_decoder.md R193). -/
def flipBit (k : Nat) (W : Word × Word) : Word × Word :=
  if k < 32 then (W.1 ^^^ 1#32 <<< k, W.2) else (W.1, W.2 ^^^ 1#32 <<< (k - 32))

/-! ### Which operations do what -/

/-- The operations that decode received words (42_ltc_decoder.md R194 to R197). -/
abbrev Decodes (i : Instr) : Prop :=
  (∃ w0 w1, i = .decPacket w0 w1) ∨ (∃ x0 x1 x2, i = .decPacket3 x0 x1 x2) ∨ (∃ w0 w1 s16, i = .decFrame80 w0 w1 s16) ∨
  i = .rxPoll

/-- SET_FPS_DF of a file. -/
abbrev SetsRate (t : File) (i : Instr) : Prop := ∃ fps df, i = .setFpsDf t fps df

/-- SET_FLAGS of a file. -/
abbrev SetsFlags (t : File) (i : Instr) : Prop := ∃ cf clk bgf0 bgf2, i = .setFlags t cf clk bgf0 bgf2

/-- START, in any mode. -/
abbrev IsStart (i : Instr) : Prop := ∃ m, i = .start m

/-- JAM_LOAD, of any offset. -/
abbrev IsJamLoad (i : Instr) : Prop := ∃ k, i = .jamLoad k

/-- A run of the transmit side, from one state to another: at `true` RT executes a TX_FRAME with no LINE step between its
pushes, at `false` LINE_TX executes a LINE_TX_POP, and neither is held or finds TXQ empty (41_ltc_encoder.md R176, R178, R179). -/
def Transmits : List Bool → State → State → Prop
  | [], s, s' => s' = s
  | true :: run, s, s' =>
    ∃ s1, exec .txFrame { s with agent := .rt, between := [] } = .next s1 ∧ s1.result ≠ .held ∧ Transmits run s1 s'
  | false :: run, s, s' =>
    ∃ s1 w, exec .lineTxPop { s with agent := .lineTx } = .next s1 ∧ s1.result = .word w ∧ Transmits run s1 s'

/-! ### What a statement about reception may assume -/

/-- After RXOVF no claim is made about reception until the next START (60_exceptions.md R281): statements about RX_POLL
assume this. -/
abbrev ReceptionClaimed (s : State) : Prop := s.st.rxOvf = false

end Sys2Proof.Machine
end

