-- ==== Sys2Proof/Certificates/Slice0/Obligations.lean ====
section
/-! DEFINITION. The statements about the block, for the provers. Each docstring names the rule of spec/ that it formalises.
`permits i s` says that the issuer may issue the operation (60_exceptions.md R291), `s.canLock l` that it can take the lock
for the span of the operation (10_state.md R29), and `s.opened` is the state with nothing delivered and nothing raised yet:
every field that a conclusion does not name is unchanged. -/

open Sys2Proof Sys2Proof.Machine

/-! ### Encodings and the step -/

/-- The decoder reads back every operation and every data format that the port's byte layout can carry, with every operand
at every value, and leaves what follows. The byte layout is this model's (notes/assumptions/1.md). -/
def Obligations.DecodeOfEncode : Prop :=
  ∀ (i : Instr) (rest : List Byte), i.wf = true → decode i.form (encode i ++ rest) = some (i, rest)

/-- Whatever bytes stand at the port, what the decoder reads from them is well-formed, is of the form the caller named, and
was read from the front of the bytes. The byte layout is this model's (notes/assumptions/1.md). -/
def Obligations.DecodedIsWellFormed : Prop :=
  ∀ (form : Form) (bytes rest : List Byte) (i : Instr), decode form bytes = some (i, rest) →
    i.wf = true ∧ i.form = form ∧ ∃ used, bytes = used ++ rest

/-- 30_encoding.md R112: "Codes not listed are reserved and refused", by the decoder and by the step; "a model gives a meaning
to these and refuses anything else": the seven data formats of the opcode table are no operations, and each is refused as
such. That the step refuses at the port rests on this model's port (notes/assumptions/4.md), and that the agent's step comes while
no other agent's operation is in progress on its reading of unlocked reads (notes/assumptions/16.md). -/
def Obligations.UnlistedOperationsRefused : Prop :=
  (∀ (code : Byte) (bytes : List Byte),
    code ∉ [0x01#8, 0x02#8, 0x03#8, 0x04#8, 0x05#8, 0x06#8, 0x07#8, 0x08#8, 0x09#8, 0x0A#8, 0x10#8, 0x11#8, 0x18#8, 0x19#8,
      0x1A#8, 0x1B#8, 0x20#8, 0x21#8, 0x22#8, 0x23#8, 0x24#8, 0x30#8, 0x31#8, 0x32#8, 0x33#8, 0x34#8, 0x35#8, 0x40#8,
      0x41#8] →
    decode .op (code :: bytes) = none ∧
    ∀ (s : State) (t : Turn) (turns : List Turn) (items : List Item), s.sched = t :: turns →
      s.inProgress = none ∨ s.inProgress = some t.agent →
      takeFirst t.agent s.port = some (⟨t.agent, .op .op (code :: bytes)⟩, items) → step s = .refused .reservedCode) ∧
  ∀ (s : State) (f : LtcW0) (g : LtcW1) (v w : Half) (r : Raw32),
    exec (.ltcW0 f) s = .refused .notAnOperation ∧ exec (.ltcW1 g) s = .refused .notAnOperation ∧
    exec (.p3X0 w) s = .refused .notAnOperation ∧ exec (.p3X1 v w) s = .refused .notAnOperation ∧
    exec (.p3X2 v) s = .refused .notAnOperation ∧ exec .sync16 s = .refused .notAnOperation ∧
    exec (.raw32 r) s = .refused .notAnOperation

/-- A few words of 30_encoding.md R92, R96, R102, R105 and R112 read as what they stand for: the operation codes 0x02, 0x03
and 0x34, vector E18's data words, the 3-word packet of vector E23 and vector T47's raw word. That an operand of zero bytes reads
as TX, TX.lock and zeros, and the order of the bytes, are this model's layout (notes/assumptions/1.md); the form under which a
table word is read is its guess (notes/assumptions/2.md). -/
def Obligations.DecodeSanityWords : Prop :=
  decodeTableWord 8 0x03 = some (.nextFrame .tx) ∧ decodeTableWord 8 0x34 = some (.release .tx) ∧
  decodeTableWord 8 0x02 = some (.loadTc .tx 0 0 0 0) ∧ decodeTableWord 16 0xBFFC = some .sync16 ∧
  LtcW0.ofWord 0x45362917#32 = ⟨7, 1, 1, false, true, 2, 6, 3, 5, false, 4⟩ ∧
  LtcW1.ofWord 0x85726B54#32 = ⟨4, 5, 3, true, 6, 2, 7, 1, true, false, 8⟩ ∧
  decode .x0 [0xFC#8, 0xBF#8, 0x04#8, 0x00#8] = some (.p3X0 0x0004#16, []) ∧
  decode .x1 [0x03#8, 0x00#8, 0x02#8, 0x00#8] = some (.p3X1 0x0002#16 0x0003#16, []) ∧
  decode .x2 [0x01#8, 0x00#8, 0xFC#8, 0xBF#8] = some (.p3X2 0x0001#16, []) ∧
  Raw32.ofWord 0x173B3B1D#32 = ⟨false, 23, 59, 59, 29⟩

/-- When the bytes of the scheduled agent's first item decode to an operation, a step is that operation, executed as that
agent's, in the state that the turn opens; then the item is done, or stays at the port when the operation was held. A turn of
an agent that has nothing at the ports only lets its time pass, and with nothing scheduled a step changes nothing. The state
that a turn opens differs from the present one in the turn's own inputs only; an operation of another agent that is in progress
beside the turn is seen as the raw fields it leaves (40_timecode_ops.md R142). Once an unlocked read has found it so, every
operation of another agent but READ_RAW_STABLE is held until it has run (notes/assumptions/16.md). The schedule and the port are
this model's (notes/assumptions/4.md). -/
def Obligations.StepRunsDecoded : Prop :=
  ∀ (s : State), (s.sched = [] → step s = .next s) ∧
    ∀ (t : Turn) (turns : List Turn) (writer : Option Agent), s.sched = t :: turns →
      writer = (if s.inProgress = none then t.writer else s.inProgress) →
      (∃ newTx newRx, s.openTurn t turns = { s with
          sched := turns, now := s.now + t.elapsed, agent := t.agent, between := t.between, tears := t.tears,
          newTx := newTx, newRx := newRx } ∧
        (writer = none ∨ writer = some t.agent → newTx = s.tx.rawFields ∧ newRx = s.rx.rawFields) ∧
        ∀ (b : Agent) (later : List Item) (form : Form) (bytes left : List Byte) (j : Instr) (d : State),
          writer = some b → b ≠ t.agent → takeFirst b s.port = some (⟨b, .op form bytes⟩, later) →
          decode form bytes = some (j, left) →
          exec j { s with
            sched := turns, now := s.now + t.elapsed, agent := b, between := [], tears := [] } = .next d →
          newTx = d.tx.rawFields ∧ newRx = d.rx.rawFields) ∧
      (takeFirst t.agent s.port = none →
        step s = .next { s.openTurn t turns with result := .none, events := [] }) ∧
      ∀ (items : List Item) (form : Form) (bytes left : List Byte) (i : Instr) (progress : Option Agent),
        takeFirst t.agent s.port = some (⟨t.agent, .op form bytes⟩, items) → decode form bytes = some (i, left) →
        ((∃ f, i = .readRawStable f) →
          ((s.openTurn t turns).newTx ≠ s.tx.rawFields ∨ (s.openTurn t turns).newRx ≠ s.rx.rawFields) →
          progress = writer) →
        ((∀ f, i ≠ .readRawStable f) ∨
          (s.openTurn t turns).newTx = s.tx.rawFields ∧ (s.openTurn t turns).newRx = s.rx.rawFields → progress = none) →
        ((s.inProgress = none ∨ s.inProgress = some t.agent ∨ ∃ f, i = .readRawStable f) →
          step s = (match exec i (s.openTurn t turns) with
            | .next s' => .next (
              if s'.result = .held then { s' with port := s.port, inProgress := s.inProgress }
              else { s' with port := items, inProgress := progress })
            | .fault e => .fault e
            | .refused e => .refused e)) ∧
        (s.inProgress ≠ none → s.inProgress ≠ some t.agent → (∀ f, i ≠ .readRawStable f) →
          step s = .next { s.openTurn t turns with result := .held, events := [] })

/-- 40_timecode_ops.md R142 with 20_memory.md R72: what an unlocked read finds in progress is an operation that is carried out
whole. A step that sets it in progress is a READ_RAW_STABLE of another agent, and its new raw fields are those that the named
agent's first item, run now, leaves; a rebuild is none (70_reset_and_hazards.md R301). While it is in progress no step of another
agent changes a register file or ends it, and the agent's own next step, at whatever time and whatever LINE steps fall into it,
leaves exactly the raw fields that it leaves when it is run now. How reads tear is this model's (notes/assumptions/16.md). -/
def Obligations.ReadsSeeCommittedOperations : Prop :=
  ∀ (s : State) (t : Turn) (turns : List Turn) (b : Agent), s.sched = t :: turns →
    (∀ s', s.inProgress = none → step s = .next s' → s'.inProgress = some b →
      t.writer = some b ∧ b ≠ t.agent ∧ s'.tx = s.tx ∧ s'.rx = s.rx ∧
      (∃ form bytes left f items, takeFirst t.agent s.port = some (⟨t.agent, .op form bytes⟩, items) ∧
        decode form bytes = some (.readRawStable f, left)) ∧
      ∃ it later d, takeFirst b s'.port = some (it, later) ∧ it.act ≠ .rebuild ∧
        perform it.act { s' with agent := b, between := [], tears := [] } = .next d ∧
        s'.newTx = d.tx.rawFields ∧ s'.newRx = d.rx.rawFields) ∧
    ∀ (it : Item) (later : List Item) (d : State), s.inProgress = some b → takeFirst b s.port = some (it, later) →
      it.act ≠ .rebuild → perform it.act { s with agent := b, between := [], tears := [] } = .next d →
      (d.tx.rawFields ≠ s.tx.rawFields ∨ d.rx.rawFields ≠ s.rx.rawFields) →
      (t.agent ≠ b → ∀ s', step s = .next s' → s'.inProgress = some b ∧ s'.tx = s.tx ∧ s'.rx = s.rx) ∧
      (t.agent = b → ∃ s', step s = .next s' ∧ s'.inProgress = none ∧
        s'.tx.rawFields = d.tx.rawFields ∧ s'.rx.rawFields = d.rx.rawFields)

/-- 00_scope.md R9: an operation that holds "has no step now". Nothing but the turn's own time has passed, and the operation is
still at the port, with the same operation in progress; but an RX_POLL whose DEC_PACKET holds for RX.lock has popped its two
words (42_ltc_decoder.md R197: the pops take no lock). That a hold is a next state is this model's (notes/assumptions/5.md). -/
def Obligations.HeldOperationStaysAtPort : Prop :=
  ∀ (s s' : State) (t : Turn) (turns : List Turn), s.sched = t :: turns → step s = .next s' → s'.result = .held →
    (s' = { s with
      sched := turns, now := s.now + t.elapsed, agent := t.agent, between := t.between, tears := t.tears,
      result := .held, events := [], newTx := s'.newTx, newRx := s'.newRx }) ∨
    ∃ (w0 w1 : Word) (q pushed : List Word) (holder : Agent),
      t.agent = .rt ∧ running s.mode = true ∧ s.stopReq = false ∧ s.rxHeld = none ∧ s.rxq = w0 :: w1 :: q ∧
      s.rxLock = some holder ∧ holder ≠ .rt ∧
      s' = { s with
        sched := turns, now := s.now + t.elapsed, agent := t.agent, between := t.between, tears := t.tears,
        result := .held, events := s'.events, newTx := s'.newTx, newRx := s'.newRx,
        rxHeld := some (w0, w1), rxq := q ++ pushed, st := { s.st with rxOvf := s'.st.rxOvf } }

/-- 00_scope.md R9: an operation with no step now is held, with no effect. What holds an operation: a lock it takes, held by
another agent (40_timecode_ops.md R130, 44_engine_control.md R254); no room in TXQ (41_ltc_encoder.md R176); an engine that is
stopped, or asked to stop (10_state.md R36), where the operation needs it running; a timer before its deadline
(43_clock_adjust.md R219, R222). That an operation which is not enabled is held is this model's (notes/assumptions/5.md,
notes/assumptions/6.md), and so is which lock START, LOAD_CAL, MICRO_ADJUST and RX_POLL wait for, and when
(notes/assumptions/20.md), and that LINE_RX is enabled only while the engine runs (notes/assumptions/19.md). -/
def Obligations.BlockedOperationsHold : Prop :=
  ∀ (s : State) (i : Instr), permits i s = true →
    ((∃ (t : File), s.canLock (fileLock t) = false ∧
        (i = .nextFrame t ∨ i = .prevFrame t ∨ i = .toRaw t ∨ i = .toAscii t ∨ (∃ fps df, i = .setFpsDf t fps df) ∨
          (∃ hh mm ss ff, i = .loadTc t hh mm ss ff) ∨ (∃ str, i = .fromAscii t str) ∨
          (∃ n1 n2 n3 n4 n5 n6 n7 n8, i = .setUb t n1 n2 n3 n4 n5 n6 n7 n8) ∨
          ∃ cf clk bgf0 bgf2, i = .setFlags t cf clk bgf0 bgf2)) ∨
      (s.canLock .tx = false ∧ ((∃ b, i = .encPacket b) ∨ i = .txFrame ∨ ∃ k, i = .jamLoad k)) ∨
      (s.canLock .rx = false ∧ ((∃ w0 w1, i = .decPacket w0 w1) ∨ (∃ x0 x1 x2, i = .decPacket3 x0 x1 x2) ∨
        (∃ w0 w1 s16, i = .decFrame80 w0 w1 s16) ∨ (i = .rxPoll ∧ s.rxHeld.isSome = true) ∨ ∃ k, i = .jamLoad k)) ∨
      (s.canLock .div = false ∧ (i = .mainFire ∨ i = .safeFire ∨ i = .cancelDither)) ∨
      (∃ (c : Rat) (P : Option Int), i = .microAdjust (.finite c) P ∧
        -s.par.calMax ≤ c ∧ c ≤ s.par.calMax ∧ 0 < P.getD s.dv.period ∧
        (s.canLock .div = false ∨ running s.mode = true ∧ s.stopReq = true)) ∨
      (∃ (c : Rat) (P : Option Int), i = .loadCal (.finite c) P ∧
        -s.par.calMax ≤ c ∧ c ≤ s.par.calMax ∧ 0 < P.getD s.dv.period ∧
        running s.mode = false ∧ s.canLock .div = false) ∨
      (∃ arg, i = .start arg ∧ running s.mode = false ∧ (s.canLock .tx = false ∨ s.canLock .div = false) ∧
        (arg = .run ∨ arg = .monitor ∨ ∃ n, arg = .jamming n ∧ 1 ≤ n ∧ n ≤ s.par.jamMax)) ∨
      (i = .txFrame ∧ (8 < s.txq.length + 2 + s.syncph.toNat ∨ running s.mode = false ∨ s.stopReq = true)) ∨
      (i = .rxPoll ∧ s.rxHeld = none ∧ (running s.mode = false ∨ s.stopReq = true)) ∨
      ((i = .lineTxPop ∨ ∃ w, i = .lineRxPush w) ∧ running s.mode = false) ∨
      (i = .mainFire ∧ ∃ d, s.dv.tMain = some d ∧ s.now < d) ∨ (i = .safeFire ∧ ∃ d, s.dv.tSafe = some d ∧ s.now < d)) →
    exec i s = .next { s with result := .held, events := [] }

/-- 60_exceptions.md R291: which operations the interrupt contexts, TIMER, UI, RT and HOST may issue; any other issuer of an
operation is refused. When TIMER's CANCEL_DITHER counts as "after an underflow", and that a LOAD_CAL of HOST in a running
engine is left to its own rule (43_clock_adjust.md R232), are this model's reading (notes/assumptions/7.md). -/
def Obligations.AgentsAreRefused : Prop :=
  (∀ (i : Instr) (s : State), i.form = .op → permits i s = false → exec i s = .refused (.notPermitted s.agent)) ∧
  (∀ (i : Instr) (s : State), s.agent = .lineTx → (permits i s = true ↔ i = .lineTxPop)) ∧
  (∀ (i : Instr) (s : State), s.agent = .lineRx → (permits i s = true ↔ ∃ w, i = .lineRxPush w)) ∧
  (∀ (i : Instr) (s : State), s.agent = .timer →
    (permits i s = true ↔ i = .mainFire ∨ i = .safeFire ∨ (i = .cancelDither ∧ s.st.underflow = true))) ∧
  (∀ (i : Instr) (s : State), s.agent = .rt → i.form = .op →
    (permits i s = false ↔
      i = .lineTxPop ∨ (∃ w, i = .lineRxPush w) ∨ i = .mainFire ∨ i = .safeFire ∨ ∃ c p, i = .loadCal c p)) ∧
  (∀ (i : Instr) (s : State), s.agent = .ui →
    (permits i s = true ↔
      (∃ t, i = .toRaw t ∨ i = .toAscii t ∨ i = .readRawStable t) ∨
      (∃ l, l ≠ .div ∧ (i = .acquire l ∨ i = .release l)) ∨
      (∃ t fps df, i = .setFpsDf t fps df) ∨ (∃ t hh mm ss ff, i = .loadTc t hh mm ss ff) ∨
      (∃ t str, i = .fromAscii t str) ∨ (∃ t n1 n2 n3 n4 n5 n6 n7 n8, i = .setUb t n1 n2 n3 n4 n5 n6 n7 n8) ∨
      (∃ t cf clk bgf0 bgf2, i = .setFlags t cf clk bgf0 bgf2) ∨ (∃ m, i = .setMode m) ∨ i = .stop)) ∧
  (∀ (i : Instr) (s : State), s.agent = .host →
    (permits i s = true ↔ i = .stop ∨ (∃ c p, i = .loadCal c p) ∨
      (running s.mode = false ∧
        ((∃ t, i = .toRaw t ∨ i = .toAscii t ∨ i = .readRawStable t ∨ i = .nextFrame t ∨ i = .prevFrame t) ∨
          (∃ t fps df, i = .setFpsDf t fps df) ∨ (∃ t hh mm ss ff, i = .loadTc t hh mm ss ff) ∨
          (∃ t str, i = .fromAscii t str) ∨ (∃ t n1 n2 n3 n4 n5 n6 n7 n8, i = .setUb t n1 n2 n3 n4 n5 n6 n7 n8) ∨
          (∃ t cf clk bgf0 bgf2, i = .setFlags t cf clk bgf0 bgf2) ∨ ∃ m, i = .start m))))

/-! ### Data formats -/

/-- The tables that the other statements name: 10_state.md R24 to R26, the six rates in the order of their codes, their frame
numbers per second and where drop-frame is allowed; 30_encoding.md R99, the 25 fps family under either value of
FAM25_INCLUDES_2498, and its default; 43_clock_adjust.md R211 and R214, the divider of a rate and the dither direction. -/
def Obligations.RateTables : Prop :=
  let rates : List Rate := [.r30, .r2997, .r25, .r2498, .r24, .r2398]
  (∀ r : Rate, r ∈ rates ∧ rateOfCode (rateCode r) = some r) ∧ rateOfCode 6 = none ∧ rateOfCode 7 = none ∧
  rates.map rateCode = [0, 1, 2, 3, 4, 5] ∧ rates.map framesPerSecond = [30, 30, 25, 25, 24, 24] ∧
  rates.map allowsDropFrame = [false, true, false, false, false, true] ∧
  (∀ p : Params, p.fam25Includes2498 = false → rates.map (fam25 p) = [false, false, true, false, false, false]) ∧
  (∀ p : Params, p.fam25Includes2498 = true → rates.map (fam25 p) = [false, false, true, true, false, false]) ∧
  State.reset.par.fam25Includes2498 = false ∧
  (∀ T : DividerTable, rates.map (nominalDivider T) = [T.at30, T.at2997, T.at25, T.at2498, T.at24, T.at2398]) ∧
  directionSign .up = 1 ∧ directionSign .down = -1

/-- The layouts of 30_encoding.md R92, R93 and R105 use every bit of a word once: fields to a word and back, and a word to
its fields and back. -/
def Obligations.WordLayoutsRoundTrip : Prop :=
  (∀ f : LtcW0, LtcW0.ofWord f.word = f) ∧ (∀ w : Word, (LtcW0.ofWord w).word = w) ∧
  (∀ f : LtcW1, LtcW1.ofWord f.word = f) ∧ (∀ w : Word, (LtcW1.ofWord w).word = w) ∧
  (∀ f : Raw32, Raw32.ofWord f.word = f) ∧ (∀ w : Word, (Raw32.ofWord w).word = w)

/-- 41_ltc_encoder.md R172 with the tables of 30_encoding.md R92, R93 and R98: where each field of a register file stands in
the encoded data words, in and outside the 25 fps family, for a time that is legal at its rate; the one position left over makes
the frame's parity even. -/
def Obligations.EncodedFieldPositions : Prop :=
  ∀ (p : Params) (S : Timecode), S.time.Legal (framesPerSecond S.fps) →
    let W0 := (encParity p S).1
    let W1 := (encParity p S).2
    ((W0.extractLsb' 0 4).toNat = S.ff.toNat % 10 ∧ W0.extractLsb' 4 4 = S.uf1 ∧
      (W0.extractLsb' 8 2).toNat = S.ff.toNat / 10 ∧ W0.getLsbD 10 = S.df ∧ W0.getLsbD 11 = S.cf ∧
      W0.extractLsb' 12 4 = S.uf2 ∧ (W0.extractLsb' 16 4).toNat = S.ss.toNat % 10 ∧
      W0.extractLsb' 20 4 = S.uf3 ∧ (W0.extractLsb' 24 3).toNat = S.ss.toNat / 10 ∧
      W0.extractLsb' 28 4 = S.uf4) ∧
    ((W1.extractLsb' 0 4).toNat = S.mm.toNat % 10 ∧ W1.extractLsb' 4 4 = S.uf5 ∧
      (W1.extractLsb' 8 3).toNat = S.mm.toNat / 10 ∧ W1.extractLsb' 12 4 = S.uf6 ∧
      (W1.extractLsb' 16 4).toNat = S.hh.toNat % 10 ∧ W1.extractLsb' 20 4 = S.uf7 ∧
      (W1.extractLsb' 24 2).toNat = S.hh.toNat / 10 ∧ W1.getLsbD 26 = S.clk ∧ W1.extractLsb' 28 4 = S.uf8) ∧
    (fam25 p S.fps = true → W0.getLsbD 27 = S.bgf0 ∧ W1.getLsbD 11 = S.bgf2) ∧
    (fam25 p S.fps = false → W1.getLsbD 11 = S.bgf0 ∧ W1.getLsbD 27 = S.bgf2) ∧
    (popcount W0 + popcount W1 + 13) % 2 = 0

/-- 30_encoding.md R100: whatever a register file holds, its 80-bit frame, sync word included, has an even number of 1 bits
and an even number of 0 bits; the 64 data bits have an odd number of 1 bits. -/
def Obligations.FrameParityIsEven : Prop :=
  ∀ (p : Params) (S : Timecode),
    let W := encParity p S
    (popcount W.1 + popcount W.2 + 13) % 2 = 0 ∧ (popcount W.1 + popcount W.2) % 2 = 1 ∧
    (frameBits W.1 W.2).length = 80 ∧ (frameBits W.1 W.2).count true % 2 = 0 ∧
    (frameBits W.1 W.2).count false % 2 = 0 ∧ (dataBits W.1 W.2).count true % 2 = 1

/-- 30_encoding.md R96 and R102: the sync pattern with bit 0 first, the same bits read the other way, its 13 one bits; the
three words of the 3-word packet, and on the line sync, the 64 data bits, sync. -/
def Obligations.SyncPacketOnTheLine : Prop :=
  (syncPattern = 0xBFFC#16 ∧
    syncBits = [false, false, true, true, true, true, true, true, true, true, true, true, true, true, false, true] ∧
    (List.range 16).map (0x3FFD#16 : Half).getMsbD = syncBits ∧ syncBits.count true = 13) ∧
  ∀ (w0 w1 : Word),
    packet3 w0 w1 = [0x0000BFFC#32 ||| (w0.extractLsb' 0 16).setWidth 32 <<< 16,
      (w0.extractLsb' 16 16).setWidth 32 ||| (w1.extractLsb' 0 16).setWidth 32 <<< 16,
      (w1.extractLsb' 16 16).setWidth 32 ||| 0x0000BFFC#32 <<< 16] ∧
    (packet3 w0 w1).flatMap lineBits = syncBits ++ dataBits w0 w1 ++ syncBits

/-- The line stream of 41_ltc_encoder.md R179: the words of `k` frames from any value and either sync phase put on the line
every frame as its 64 data bits followed by exactly one sync word, the frames consecutive by NEXT_FRAME. A phase of 1 at the
start puts one sync word before the first frame; a phase of 1 at the end leaves the last frame's sync word to the next
packet. -/
def Obligations.LineStreamIsWholeFrames : Prop :=
  ∀ (p : Params) (k : Nat) (S : Timecode) (phase : Bool),
    (streamWords p k S phase).flatMap lineBits ++ (if (phase ^^ decide (k % 2 = 1)) = true then syncBits else []) =
      (if phase = true then syncBits else []) ++
        (List.range k).flatMap fun i =>
          frameBits (encParity p (Timecode.stepN i S)).1 (encParity p (Timecode.stepN i S)).2

/-- 42_ltc_decoder.md R199: a legal TX, encoded and decoded through any of the three forms, returns true without a parity
error and leaves RX equal to TX but for its own rate; across families the two flags BGF0 and BGF2 alone do not return: the
decoder reads the sender's other flag and its parity bit. -/
def Obligations.CodecRoundTrip : Prop :=
  ∀ (s : State), TxLegal s → s.tx.ff.toNat < framesPerSecond s.rx.fps → s.agent = .rt → s.canLock .rx = true →
    let W0 := (encParity s.par s.tx).1
    let W1 := (encParity s.par s.tx).2
    ∀ i ∈ [Instr.decPacket W0 W1,
        .decPacket3 (0x0000BFFC#32 ||| W0 <<< 16) ((W0 >>> 16) ||| (W1 <<< 16)) ((W1 >>> 16) ||| (0xBFFC0000#32)),
        .decFrame80 W0 W1 0xBFFC#16],
      ∃ s', exec i s = .next s' ∧ s'.result = .bool true ∧ s'.st.rxPerr = false ∧ s'.st.rxOk = true ∧
        (fam25 s.par s.rx.fps = fam25 s.par s.tx.fps → s'.rx = { s.tx with fps := s.rx.fps }) ∧
        (fam25 s.par s.rx.fps = true → fam25 s.par s.tx.fps = false →
          s'.rx = { s.tx with fps := s.rx.fps, bgf0 := W0.getLsbD 27, bgf2 := s.tx.bgf0 }) ∧
        (fam25 s.par s.rx.fps = false → fam25 s.par s.tx.fps = true →
          s'.rx = { s.tx with fps := s.rx.fps, bgf0 := s.tx.bgf2, bgf2 := W1.getLsbD 27 })

/-! ### Timecode value operations -/

/-- 40_timecode_ops.md R131 and R132: an accepted SET_FPS_DF stores the rate and the drop-frame bit; the frame number is kept
when the rate has it and is some frame number of the rate otherwise; a dropped frame number becomes 2; nothing else of the
file changes. 60_exceptions.md R279: with a code that is no rate, or with drop-frame at a rate other than 29.97 and 23.98, it is
refused with false and SETFPS_REJECT, and nothing changes. -/
def Obligations.SetFpsDfAcceptsOrRejects : Prop :=
  ∀ (s : State) (t : File) (code : BitVec 3) (df : Bool),
    permits (.setFpsDf t code df) s = true → s.canLock (fileLock t) = true →
    (∀ fps : Rate, code = rateCode fps → (df = false ∨ code = 1 ∨ code = 5) →
      ∃ (s' : State) (ff : BitVec 5), exec (.setFpsDf t code df) s = .next s' ∧
        ((s.tc t).ff.toNat < framesPerSecond fps → ff = (s.tc t).ff) ∧ ff.toNat < framesPerSecond fps ∧
        s' = { s.opened.setTc t { s.tc t with
            fps := fps, df := df,
            ff := if df = true ∧ (s.tc t).ss = 0 ∧ ff.toNat < 2 ∧ (s.tc t).mm.toNat % 10 ≠ 0 then 2 else ff } with
          result := .bool true, draws := s'.draws }) ∧
    ((code = 6 ∨ code = 7 ∨ (df = true ∧ code ≠ 1 ∧ code ≠ 5)) →
      exec (.setFpsDf t code df) s = .next { s with result := .bool false, events := [.setFpsReject] })

/-- 40_timecode_ops.md R133: LOAD_TC stores a value that is legal and not dropped, and nothing else of the file; any other
value is refused with false and LOAD_REJECT. -/
def Obligations.LoadTcStoresOrRejects : Prop :=
  ∀ (s : State) (t : File) (hh mm ss ff : Nat),
    permits (.loadTc t hh mm ss ff) s = true → s.canLock (fileLock t) = true →
    if hh < 24 ∧ mm < 60 ∧ ss < 60 ∧ ff < framesPerSecond (s.tc t).fps ∧
        ¬((s.tc t).df = true ∧ ss = 0 ∧ ff < 2 ∧ mm % 10 ≠ 0) then
      ∃ s', exec (.loadTc t hh mm ss ff) s = .next s' ∧
        (s'.tc t).hh.toNat = hh ∧ (s'.tc t).mm.toNat = mm ∧ (s'.tc t).ss.toNat = ss ∧ (s'.tc t).ff.toNat = ff ∧
        s' = { s.opened.setTc t { s.tc t with
            hh := (s'.tc t).hh, mm := (s'.tc t).mm, ss := (s'.tc t).ss, ff := (s'.tc t).ff } with result := .bool true }
    else exec (.loadTc t hh mm ss ff) s = .next { s with result := .bool false, events := [.loadReject] }

/-- 40_timecode_ops.md R134: NEXT_FRAME, on any value of a register file: the carry chain, then the drop-frame skip. Only the
four time fields of that file change. -/
def Obligations.NextFrameAdvances : Prop :=
  ∀ (s : State) (t : File), permits (.nextFrame t) s = true → s.canLock (fileLock t) = true →
    let v := (s.tc t).time
    let c : Time :=
      if v.ff + 1 < framesPerSecond (s.tc t).fps then ⟨v.hh, v.mm, v.ss, v.ff + 1⟩
      else if v.ss + 1 < 60 then ⟨v.hh, v.mm, v.ss + 1, 0⟩
      else if v.mm + 1 < 60 then ⟨v.hh, v.mm + 1, 0, 0⟩
      else if v.hh + 1 < 24 then ⟨v.hh + 1, 0, 0, 0⟩
      else ⟨0, 0, 0, 0⟩
    ∃ s', exec (.nextFrame t) s = .next s' ∧
      (s'.tc t).time = (if (s.tc t).df = true ∧ c.ss = 0 ∧ c.ff < 2 ∧ c.mm % 10 ≠ 0 then ⟨c.hh, c.mm, c.ss, 2⟩ else c) ∧
      s' = s.opened.setTc t { s.tc t with
        hh := (s'.tc t).hh, mm := (s'.tc t).mm, ss := (s'.tc t).ss, ff := (s'.tc t).ff }

/-- 40_timecode_ops.md R135: PREV_FRAME, on any value of a register file: frame 2 or less of a dropped minute counts as its
first, then the borrow chain. Only the four time fields of that file change. -/
def Obligations.PrevFrameRetreats : Prop :=
  ∀ (s : State) (t : File), permits (.prevFrame t) s = true → s.canLock (fileLock t) = true →
    let v := (s.tc t).time
    let n := framesPerSecond (s.tc t).fps
    let f := if (s.tc t).df = true ∧ v.ss = 0 ∧ v.ff ≤ 2 ∧ v.mm % 10 ≠ 0 then 0 else v.ff
    ∃ s', exec (.prevFrame t) s = .next s' ∧
      (s'.tc t).time =
        (if 0 < f then ⟨v.hh, v.mm, v.ss, f - 1⟩
         else if 0 < v.ss then ⟨v.hh, v.mm, v.ss - 1, n - 1⟩
         else if 0 < v.mm then ⟨v.hh, v.mm - 1, 59, n - 1⟩
         else if 0 < v.hh then ⟨v.hh - 1, 59, 59, n - 1⟩
         else ⟨23, 59, 59, n - 1⟩) ∧
      s' = s.opened.setTc t { s.tc t with
        hh := (s'.tc t).hh, mm := (s'.tc t).mm, ss := (s'.tc t).ss, ff := (s'.tc t).ff }

/-- The inverse law of 40_timecode_ops.md R136: on every legal and DF-legal value NEXT_FRAME and PREV_FRAME undo each other,
and both keep the value legal and DF-legal. 30_encoding.md R114: `STEP T, n` and `PREV_FRAME T, count` are that many
NEXT_FRAMEs or PREV_FRAMEs under one hold of the file's lock, and nothing for a count of 0. That they are one act at the port,
and held or refused as one, is this model's (notes/assumptions/4.md, notes/assumptions/20.md). -/
def Obligations.FrameStepsInvertAndRepeat : Prop :=
  (∀ (T : Timecode), T.Loadable T.time →
    T.next.prev = T ∧ T.prev.next = T ∧ T.next.Loadable T.next.time ∧ T.prev.Loadable T.prev.time) ∧
  ∀ (s : State) (t : File) (n : Nat) (one : Instr) (many : Nat → Act),
    (one = .nextFrame t ∧ many = Act.stepCount t ∨ one = .prevFrame t ∧ many = Act.prevFrameCount t) →
    perform (many 0) s = .next { s with result := .none, events := [] } ∧
    (permits one s = true → s.canLock (fileLock t) = true →
      ∃ s1, exec one s = .next s1 ∧ perform (many (n + 1)) s = perform (many n) s1) ∧
    (permits one s = true → s.canLock (fileLock t) = false →
      perform (many (n + 1)) s = .next { s with result := .held, events := [] }) ∧
    (permits one s = false → perform (many (n + 1)) s = .refused (.notPermitted s.agent))

/-- The day of 40_timecode_ops.md R136: from every legal and DF-legal value, NEXT_FRAME comes back to it after exactly
24·60·60·N steps, less 2·(60-6)·24 with drop-frame, and not before. -/
def Obligations.DayIsOneCycle : Prop :=
  ∀ (T : Timecode), T.Loadable T.time →
    let day := 24 * 60 * 60 * framesPerSecond T.fps - (if T.df = true then 2 * (60 - 6) * 24 else 0)
    Timecode.stepN day T = T ∧ ∀ k, 0 < k → k < day → Timecode.stepN k T ≠ T

/-- 40_timecode_ops.md R137 and R138 with 30_encoding.md R105 and R106: TO_RAW delivers the packed word and TO_ASCII the 11
characters, and neither changes anything. -/
def Obligations.SerialisedForms : Prop :=
  ∀ (s : State) (t : File),
    (permits (.toRaw t) s = true → s.canLock (fileLock t) = true →
      ∃ w : Word, exec (.toRaw t) s = .next { s with result := .word w, events := [] } ∧
        w.toNat = (s.tc t).df.toNat * 2 ^ 31 + (s.tc t).hh.toNat * 2 ^ 24 + (s.tc t).mm.toNat * 2 ^ 16 +
          (s.tc t).ss.toNat * 2 ^ 8 + (s.tc t).ff.toNat) ∧
    (permits (.toAscii t) s = true → s.canLock (fileLock t) = true →
      let d (v : Nat) : Byte := BitVec.ofNat 8 (0x30 + v)
      exec (.toAscii t) s = .next { s with
        result := .chars [d ((s.tc t).hh.toNat / 10), d ((s.tc t).hh.toNat % 10), 0x3A#8,
          d ((s.tc t).mm.toNat / 10), d ((s.tc t).mm.toNat % 10), 0x3A#8,
          d ((s.tc t).ss.toNat / 10), d ((s.tc t).ss.toNat % 10), if (s.tc t).df = true then 0x2E#8 else 0x3A#8,
          d ((s.tc t).ff.toNat / 10), d ((s.tc t).ff.toNat % 10)],
        events := [] })

/-- 40_timecode_ops.md R139: FROM_ASCII of a well-formed string does what LOAD_TC of its four numbers does, whichever of the
two separators stands at position 8; of any other string it is refused with false and LOAD_REJECT, and nothing changes. -/
def Obligations.FromAsciiLoadsOrRejects : Prop :=
  ∀ (s : State) (t : File) (str : List Byte),
    permits (.fromAscii t str) s = true → s.canLock (fileLock t) = true →
    let digit (k : Nat) : Bool := decide (0x30 ≤ (str.getD k 0).toNat ∧ (str.getD k 0).toNat ≤ 0x39)
    let num (k : Nat) : Nat := 10 * ((str.getD k 0).toNat - 0x30) + ((str.getD (k + 1) 0).toNat - 0x30)
    if str.length = 11 ∧ str.getD 2 0 = 0x3A#8 ∧ str.getD 5 0 = 0x3A#8 ∧ (str.getD 8 0 = 0x3A#8 ∨ str.getD 8 0 = 0x2E#8) ∧
        (digit 0 && digit 1 && digit 3 && digit 4 && digit 6 && digit 7 && digit 9 && digit 10) = true then
      exec (.fromAscii t str) s = exec (.loadTc t (num 0) (num 3) (num 6) (num 9)) s ∧
      ∃ s', exec (.fromAscii t str) s = .next s'
    else exec (.fromAscii t str) s = .next { s with result := .bool false, events := [.loadReject] }

/-- 40_timecode_ops.md R140 and R141: SET_UB writes the eight nibbles, SET_FLAGS the four flags, and nothing else. -/
def Obligations.UserBitsAndFlagsAreStored : Prop :=
  (∀ (s : State) (t : File) (n1 n2 n3 n4 n5 n6 n7 n8 : Nibble),
    permits (.setUb t n1 n2 n3 n4 n5 n6 n7 n8) s = true → s.canLock (fileLock t) = true →
    exec (.setUb t n1 n2 n3 n4 n5 n6 n7 n8) s = .next (s.opened.setTc t { s.tc t with
      uf1 := n1, uf2 := n2, uf3 := n3, uf4 := n4, uf5 := n5, uf6 := n6, uf7 := n7, uf8 := n8 })) ∧
  (∀ (s : State) (t : File) (cf clk bgf0 bgf2 : Bool),
    permits (.setFlags t cf clk bgf0 bgf2) s = true → s.canLock (fileLock t) = true →
    exec (.setFlags t cf clk bgf0 bgf2) s = .next (s.opened.setTc t { s.tc t with
      cf := cf, clk := clk, bgf0 := bgf0, bgf2 := bgf2 }))

/-- 40_timecode_ops.md R142: READ_RAW_STABLE completes without the lock and changes nothing. Each of its unlocked reads finds
every field old, or as the operation in progress leaves it; the word it delivers is that of the first pair of reads that
agree, and once the pairs that find a change under way are spent it is RAW32 of the present value; so it is with no torn read,
and with no field in change. How reads tear is this model's (notes/assumptions/16.md). -/
def Obligations.StableReadDeliversAgreement : Prop :=
  ∀ (s : State) (t : File), permits (.readRawStable t) s = true →
    let old := (s.tc t).rawFields
    let new := s.newRaw t
    let read (m : Tear) : Word := ({
      df := if m.df then new.df else old.df, hh := if m.hh then new.hh else old.hh, mm := if m.mm then new.mm else old.mm,
      ss := if m.ss then new.ss else old.ss, ff := if m.ff then new.ff else old.ff } : RawFields).word
    ∃ w : Word, exec (.readRawStable t) s = .next { s with result := .word w, events := [] } ∧
      ((∃ (pairs later : List (Tear × Tear)) (m m' : Tear), s.tears = pairs ++ (m, m') :: later ∧
          (∀ p ∈ pairs, read p.1 ≠ read p.2) ∧ read m = read m' ∧ w = read m) ∨
        ((∀ p ∈ s.tears, read p.1 ≠ read p.2) ∧ w = (s.tc t).raw)) ∧
      (s.tears = [] → w = (s.tc t).raw) ∧ (new = old → w = (s.tc t).raw)

/-! ### The encoder's operations -/

/-- 41_ltc_encoder.md R174: ENC_PACKET delivers the two data words, or the three words with the sync pattern around them, and
changes nothing. -/
def Obligations.EncPacketDeliversWords : Prop :=
  ∀ (s : State) (sendSync : Bool), permits (.encPacket sendSync) s = true → s.canLock .tx = true →
    let W0 := (encParity s.par s.tx).1
    let W1 := (encParity s.par s.tx).2
    exec (.encPacket sendSync) s = .next { s with
      result := .words (if sendSync = true then
          [0x0000BFFC#32 ||| (W0.extractLsb' 0 16).setWidth 32 <<< 16,
            (W0.extractLsb' 16 16).setWidth 32 ||| (W1.extractLsb' 0 16).setWidth 32 <<< 16,
            (W1.extractLsb' 16 16).setWidth 32 ||| 0x0000BFFC#32 <<< 16]
        else [W0, W1]),
      events := [] }

/-- 41_ltc_encoder.md R176, with no other agent between the pushes: TX_FRAME pushes the echo of TX (dropped when ECHOQ is
full) and the packet of TX in the form of the sync phase, toggles the phase and advances TX by one frame. -/
def Obligations.TxFramePushesThePacket : Prop :=
  ∀ (s : State), permits .txFrame s = true → running s.mode = true → s.stopReq = false →
    s.txq.length + 2 + s.syncph.toNat ≤ 8 → s.canLock .tx = true → s.between = [] →
    exec .txFrame s = .next { s with
      result := .none, events := [],
      echoq := if s.echoq.length < s.par.echoqDepth then s.echoq ++ [s.tx.raw] else s.echoq,
      txq := s.txq ++ encPacketOf s.par s.tx s.syncph,
      syncph := !s.syncph,
      tx := s.tx.next }

/-- 41_ltc_encoder.md R176 and 60_exceptions.md R286, whatever LINE steps fall before, between and after the pushes: TX_FRAME
completes, no word that it pushes is lost or reordered on the way to the line, TX and the sync phase advance by exactly one frame.
The engine runs on with the whole packet pushed; or LINE_TX took UNDERFLOW at some point, "the packet is left partly pushed", and
the engine is halted with TXQ empty. The interleaving is this model's (notes/assumptions/17.md), and so is that nothing is pushed
after UNDERFLOW (notes/assumptions/18.md). -/
def Obligations.TxFrameSurvivesInterleaving : Prop :=
  ∀ (s : State), permits .txFrame s = true → running s.mode = true → s.stopReq = false →
    s.txq.length + 2 + s.syncph.toNat ≤ 8 → s.canLock .tx = true →
    let packet := encPacketOf s.par s.tx s.syncph
    ∃ (s' : State) (n : Nat), exec .txFrame s = .next s' ∧ n ≤ packet.length ∧
      s'.lineWords ++ s'.txq = s.lineWords ++ s.txq ++ packet.take n ∧ s'.txq.length ≤ 8 ∧
      s'.tx = s.tx.next ∧ s'.syncph = !s.syncph ∧
      s'.echoq = (if s.echoq.length < s.par.echoqDepth then s.echoq ++ [s.tx.raw] else s.echoq) ∧
      s'.rx = s.rx ∧ s'.dv = s.dv ∧ s'.txLock = s.txLock ∧ s'.rxLock = s.rxLock ∧ s'.divLock = s.divLock ∧
      s'.rxHeld = s.rxHeld ∧
      (s'.mode = s.mode ∧ s'.stopReq = false ∧ s'.lineOut = s.lineOut ∧ s'.st.underflow = s.st.underflow ∧
          n = packet.length ∨
        s'.mode = .halted ∧ s'.stopReq = true ∧ s'.lineOut = .low ∧ s'.st.underflow = true ∧
          Event.underflow ∈ s'.events ∧ s'.txq = [])

/-- 41_ltc_encoder.md R179: over any run of TX_FRAMEs, each with no LINE step between its pushes, and LINE_TX_POPs that hand
their word to the line encoder, in any order, the words on the line and in TXQ are those at the start followed by
`streamWords` of as many frames as there were TX_FRAMEs; TX has advanced by that many, and the sync phase by their parity. -/
def Obligations.TxFramesPushTheStream : Prop :=
  ∀ (run : List Bool) (s s' : State), Transmits run s s' →
    s'.lineWords ++ s'.txq = s.lineWords ++ s.txq ++ streamWords s.par (run.count true) s.tx s.syncph ∧
    s'.tx = Timecode.stepN (run.count true) s.tx ∧ s'.syncph = (s.syncph ^^ decide (run.count true % 2 = 1)) ∧
    s'.txq.length ≤ max s.txq.length 8 ∧ s'.mode = s.mode ∧ s'.par = s.par

/-- 41_ltc_encoder.md R178: while the engine runs LINE_TX_POP takes the oldest word of TXQ to the line, or, finding none,
takes UNDERFLOW (60_exceptions.md R272), whose first step halts the engine. While the engine is stopped it is not enabled: no
word leaves TXQ and UNDERFLOW is not raised. That it is then answered as held is this model's (notes/assumptions/5.md,
notes/assumptions/6.md). -/
def Obligations.LineTxPopOrUnderflow : Prop :=
  ∀ (s : State), permits .lineTxPop s = true →
    (∀ w q, running s.mode = true → s.txq = w :: q → exec .lineTxPop s = .next { s with
      result := .word w, events := [], txq := q, lineWords := s.lineWords ++ [w] }) ∧
    (running s.mode = true → s.txq = [] → exec .lineTxPop s = .next { s with
      result := .none, events := [.underflow], mode := .halted, stopReq := true,
      st := { s.st with underflow := true }, lineOut := .low }) ∧
    (running s.mode = false → exec .lineTxPop s = .next { s with result := .held, events := [] })

/-- 60_exceptions.md R273: UNDERFLOW, entry and the later cancel. From a running engine with TXQ empty, LINE_TX_POP and then
a CANCEL_DITHER by TIMER or RT leave the engine halted with its timers off, and everything else as it was; from the entry on both
line machines are disabled. That a disabled line machine's operation is answered as held is this model's
(notes/assumptions/5.md, notes/assumptions/6.md, notes/assumptions/19.md). -/
def Obligations.UnderflowEntryThenCancel : Prop :=
  ∀ (s : State) (a : Agent), s.agent = .lineTx → running s.mode = true → s.txq = [] →
    (s.divLock = none ∨ s.divLock = some a) → (a = .timer ∨ a = .rt) →
    ∃ s1, exec .lineTxPop s = .next s1 ∧
      exec .cancelDither { s1 with agent := a } = .next { s with
        agent := a, result := .none, events := [], mode := .halted, stopReq := true,
        st := { s.st with underflow := true }, lineOut := .low,
        dv := { s.dv with tMain := none, tSafe := none, dstate := .idle } } ∧
      exec .lineTxPop s1 = .next { s1 with result := .held, events := [] } ∧
      ∀ w, exec (.lineRxPush w) { s1 with agent := .lineRx } =
        .next { s1 with agent := .lineRx, result := .held, events := [] }

/-! ### The decoder's operations -/

/-- 42_ltc_decoder.md R194 with the fields of R191 and the checks of R192 and R193: DEC_PACKET publishes the parity; a frame
number of the rate is committed with every other field, any other rejects and leaves RX alone. The rate of RX is never
written (R190). -/
def Obligations.DecPacketCommitsOrRejects : Prop :=
  ∀ (s : State) (w0 w1 : Word), permits (.decPacket w0 w1) s = true → s.canLock .rx = true →
    let ff := 10 * (w0.extractLsb' 8 2).toNat + (w0.extractLsb' 0 4).toNat
    let ss := 10 * (w0.extractLsb' 24 3).toNat + (w0.extractLsb' 16 4).toNat
    let mm := 10 * (w1.extractLsb' 8 3).toNat + (w1.extractLsb' 0 4).toNat
    let hh := 10 * (w1.extractLsb' 24 2).toNat + (w1.extractLsb' 16 4).toNat
    let even := decide ((popcount w0 + popcount w1 + 13) % 2 = 0)
    let perr : List Event := if even = true then [] else [.parityErr]
    if ff < framesPerSecond s.rx.fps then
      exec (.decPacket w0 w1) s = .next { s with
        result := .bool true, events := perr,
        st := { s.st with rxOk := true, rxPerr := !even },
        rx := { s.rx with
          hh := BitVec.ofNat 6 hh, mm := BitVec.ofNat 7 mm, ss := BitVec.ofNat 7 ss, ff := BitVec.ofNat 5 ff,
          df := w0.getLsbD 10, cf := w0.getLsbD 11, clk := w1.getLsbD 26,
          bgf0 := if fam25 s.par s.rx.fps = true then w0.getLsbD 27 else w1.getLsbD 11,
          bgf2 := if fam25 s.par s.rx.fps = true then w1.getLsbD 11 else w1.getLsbD 27,
          uf1 := w0.extractLsb' 4 4, uf2 := w0.extractLsb' 12 4, uf3 := w0.extractLsb' 20 4, uf4 := w0.extractLsb' 28 4,
          uf5 := w1.extractLsb' 4 4, uf6 := w1.extractLsb' 12 4, uf7 := w1.extractLsb' 20 4, uf8 := w1.extractLsb' 28 4 } }
    else
      exec (.decPacket w0 w1) s = .next { s with
        result := .bool false, events := perr ++ [.decodeReject], st := { s.st with rxOk := false, rxPerr := !even } }

/-- 42_ltc_decoder.md R195 and R196: with every sync field right DEC_PACKET3 decodes its de-interleaved data words and
DEC_FRAME80 its two; with a wrong one (60_exceptions.md R277) the result is false, RX and the parity flag are unchanged. -/
def Obligations.SyncFieldsAreChecked : Prop :=
  (∀ (s : State) (x0 x1 x2 : Word), permits (.decPacket3 x0 x1 x2) s = true → s.canLock .rx = true →
    if x0.extractLsb' 0 16 = 0xBFFC#16 ∧ x2.extractLsb' 16 16 = 0xBFFC#16 then
      exec (.decPacket3 x0 x1 x2) s =
        exec (.decPacket ((x0.extractLsb' 16 16).setWidth 32 ||| (x1.extractLsb' 0 16).setWidth 32 <<< 16)
          ((x1.extractLsb' 16 16).setWidth 32 ||| (x2.extractLsb' 0 16).setWidth 32 <<< 16))
          { s with st := { s.st with rxSyncErr := false } } ∧
      ∃ s', exec (.decPacket3 x0 x1 x2) s = .next s'
    else exec (.decPacket3 x0 x1 x2) s = .next { s with
      result := .bool false, events := [.syncErr], st := { s.st with rxSyncErr := true, rxOk := false } }) ∧
  (∀ (s : State) (w0 w1 : Word) (s16 : Half), permits (.decFrame80 w0 w1 s16) s = true → s.canLock .rx = true →
    if s16 = 0xBFFC#16 then
      exec (.decFrame80 w0 w1 s16) s =
        exec (.decPacket w0 w1) { s with st := { s.st with rxSyncErr := false } } ∧
      ∃ s', exec (.decFrame80 w0 w1 s16) s = .next s'
    else exec (.decFrame80 w0 w1 s16) s = .next { s with
      result := .bool false, events := [.syncErr], st := { s.st with rxSyncErr := true, rxOk := false } })

/-- The ranges of 42_ltc_decoder.md R191: whatever the words, the decoded frame field is at most 45, seconds and minutes at
most 85, hours at most 45; a time whose frame number passes the check of R192 fits the register file: the commit cuts nothing
off. -/
def Obligations.DecodedTimeFits : Prop :=
  ∀ (p : Params) (w0 w1 : Word) (R : Timecode),
    (frameOk w0 w1 R.fps = true → (decCommit p w0 w1 R).time = decTime w0 w1) ∧ (decTime w0 w1).ff ≤ 45 ∧ (decTime w0 w1).ss ≤ 85 ∧
    (decTime w0 w1).mm ≤ 85 ∧ (decTime w0 w1).hh ≤ 45

/-- 42_ltc_decoder.md R193: of a pair that passes the parity check, one flipped bit anywhere in the 64 always fails it, two
always pass it. -/
def Obligations.ParityCatchesOneFlip : Prop :=
  ∀ (W : Word × Word) (j k : Nat), j < 64 → k < 64 → parityOk W.1 W.2 = true →
    parityOk (flipBit j W).1 (flipBit j W).2 = false ∧
    parityOk (flipBit k (flipBit j W)).1 (flipBit k (flipBit j W)).2 = true

/-- 42_ltc_decoder.md R197: with two words or more RX_POLL takes the first two, whoever holds RX.lock, LINE_RX pushing between
the pops, and decodes them as DEC_PACKET does; where the lock is another agent's that DEC_PACKET holds (R194), RX as it was, and
the words are decoded once the lock can be taken. With fewer words it does nothing. No claim is made after an overflow
(60_exceptions.md R281), be it one between the pops: hence the premise on the state after. That the popped words wait in the
machine is this model's (notes/assumptions/20.md). -/
def Obligations.RxPollDecodesOnePacket : Prop :=
  ∀ (s : State), permits .rxPoll s = true →
    (s.rxHeld = none → running s.mode = true → s.stopReq = false →
      (s.rxq.length < 2 → exec .rxPoll s = .next { s with result := .none, events := [] }) ∧
      (∀ w0 w1 q, s.rxq = w0 :: w1 :: q →
        ∃ (s' : State) (pushed : List Word), exec .rxPoll s = .next s' ∧
          (ReceptionClaimed s' →
            s'.rxq = q ++ pushed ∧
            (s.canLock .rx = true → s'.result = .none ∧ s'.rxHeld = none ∧
              ∃ d, exec (.decPacket w0 w1) s = .next d ∧
                s'.rx = d.rx ∧ s'.st.rxOk = d.st.rxOk ∧ s'.st.rxPerr = d.st.rxPerr ∧
                (s.between = [] → s' = { d with rxq := q, result := .none })) ∧
            (s.canLock .rx = false → s'.result = .held ∧ s'.rxHeld = some (w0, w1) ∧
              s'.rx = s.rx ∧ s'.st.rxOk = s.st.rxOk ∧ s'.st.rxPerr = s.st.rxPerr)))) ∧
    (∀ w0 w1, s.rxHeld = some (w0, w1) → s.canLock .rx = true →
      ∃ d, exec (.decPacket w0 w1) { s with rxHeld := none } = .next d ∧
        exec .rxPoll s = .next { d with result := .none })

/-- 42_ltc_decoder.md R198: LINE_RX_PUSH puts its word at the tail of RXQ, or, with RXQ full, loses it with RXOVF
(60_exceptions.md R281). Its source is enabled exactly while the engine runs (60_exceptions.md R284): while it is stopped LINE_RX
is disabled (44_engine_control.md R252) and the push is held; that this bounds R198's "at any time" is this model's reading
(notes/assumptions/19.md). -/
def Obligations.LineRxPushOrOverflow : Prop :=
  ∀ (s : State) (w : Word), permits (.lineRxPush w) s = true →
    if running s.mode = false then exec (.lineRxPush w) s = .next { s with result := .held, events := [] }
    else if s.rxq.length < s.par.rxqDepth then
      exec (.lineRxPush w) s = .next { s with result := .none, events := [], rxq := s.rxq ++ [w] }
    else exec (.lineRxPush w) s = .next { s with
      result := .none, events := [.rxOverflow], st := { s.st with rxOvf := true } }

/-! ### The clock adjuster -/

/-- 43_clock_adjust.md R213: the decomposition of a calibration value by the magnitude. R217: the two durations of a cycle,
under every `on_duration` that the rule allows. -/
def Obligations.CalibrationAndDurationsSplit : Prop :=
  (∀ (c : Rat), c = (calSgn c : Rat) * ((calInt c : Rat) + calFrac c) ∧ 0 ≤ calFrac c ∧ calFrac c < 1 ∧
    (calSgn c = -1 ∧ c < 0 ∨ calSgn c = 0 ∧ c = 0 ∨ calSgn c = 1 ∧ 0 < c)) ∧
  ∀ (r : OnRounding) (q : Nat) (a : Rat),
    onTime r q a + offTime r q a = q ∧ onTime r q a ≤ q ∧
    |(onDuration r q a : Rat) - q * calFrac a| < 1 ∧ (onDuration .floor q a : Int) = ⌊q * calFrac a⌋ ∧
    (0 < q → 1 ≤ offTime .floor q a)

/-- 43_clock_adjust.md R215: MICRO_ADJUST while the engine runs. From Idle (R218) it begins a cycle at once: with something to
dither it moves DIV by the coarse and the fine part and arms both timers, with nothing it moves DIV by the coarse part and
stays Idle. During a cycle (R224) it writes the target, the period and the coarse part, and leaves the cycle in flight alone. An
omitted period is PERIOD. -/
def Obligations.MicroAdjustSetsTheCycle : Prop :=
  ∀ (s : State) (c : Rat) (P : Option Int),
    permits (.microAdjust (.finite c) P) s = true → running s.mode = true → s.stopReq = false → s.canLock .div = true →
    -s.par.calMax ≤ c → c ≤ s.par.calMax → 0 < P.getD s.dv.period →
    let q := (P.getD s.dv.period).toNat
    let on := onTime s.par.onRounding q c
    let coarse := directionSign s.par.calDir * calSgn c * calInt c
    let fine := directionSign s.par.calDir * calSgn c
    (s.dv.dstate = .idle → exec (.microAdjust (.finite c) P) s = .next { s with
      result := .none, events := [],
      dv := { s.dv with
        calTgt := c, period := q, coarse := coarse, calAct := c, periodAct := q,
        fine := if on = 0 then 0 else fine,
        div := if on = 0 then s.dv.div0 + coarse else s.dv.div0 + coarse + fine,
        dstate := if on = 0 then .idle else .on,
        tMain := if on = 0 then none else some (s.now + on),
        tSafe := if on = 0 then none else some (s.now + on + s.par.safetyMargin) } }) ∧
    (s.dv.dstate ≠ .idle → exec (.microAdjust (.finite c) P) s = .next { s with
      result := .none, events := [],
      dv := { s.dv with calTgt := c, period := q, coarse := coarse, div := s.dv.div0 + coarse + s.dv.fine } })

/-- 43_clock_adjust.md R223 and R216: CANCEL_DITHER drops both timers and the phase, and keeps DIV, FINE, COARSE and the
calibration values, in a running engine too; MICRO_ADJUST with operands in range while the engine is stopped is exactly that. -/
def Obligations.CancelDitherDropsTimers : Prop :=
  ∀ (s : State), s.canLock .div = true →
    (permits .cancelDither s = true → exec .cancelDither s = .next { s with
      result := .none, events := [], dv := { s.dv with tMain := none, tSafe := none, dstate := .idle } }) ∧
    (∀ (c : Rat) (P : Option Int), permits (.microAdjust (.finite c) P) s = true → running s.mode = false →
      -s.par.calMax ≤ c → c ≤ s.par.calMax → 0 < P.getD s.dv.period →
      exec (.microAdjust (.finite c) P) s = .next { s with
        result := .none, events := [], dv := { s.dv with tMain := none, tSafe := none, dstate := .idle } })

/-- 60_exceptions.md R282: MICRO_ADJUST and LOAD_CAL with a value that is no finite number, a magnitude above CAL_MAX, or a
period not above 0 are refused with CAL_RANGE, whatever the mode and the lock, and nothing changes. -/
def Obligations.CalRangeIsRefused : Prop :=
  ∀ (s : State) (c : CalArg) (P : Option Int),
    (permits (.microAdjust c P) s = true →
      ((∀ x, c = .finite x → x < -s.par.calMax ∨ s.par.calMax < x) ∨ P.getD s.dv.period ≤ 0) →
      exec (.microAdjust c P) s = .next { s with result := .none, events := [.calRange] }) ∧
    (permits (.loadCal c P) s = true →
      ((∀ x, c = .finite x → x < -s.par.calMax ∨ s.par.calMax < x) ∨ P.getD s.dv.period ≤ 0) →
      exec (.loadCal c P) s = .next { s with result := .none, events := [.calRange] })

/-- MAIN_FIRE. 43_clock_adjust.md R219: at the end of the on phase it restores DIV and arms the off phase, both timers as R220
says, or, when the off phase is empty, begins the next cycle. R221 with R218: at the end of the period it begins the next cycle
with the last requested value and period. A stale callback, whose handle is none, does nothing. -/
def Obligations.MainFireMovesThePhase : Prop :=
  ∀ (s : State), permits .mainFire s = true → s.canLock .div = true →
    (∀ d, s.dv.dstate = .on → s.dv.tMain = some d → d ≤ s.now →
      let off := offTime s.par.onRounding s.dv.periodAct s.dv.calAct
      exec .mainFire s = .next { s with
        result := .none, events := [],
        dv :=
          if off = 0 then
            beginCycle s.par s.now { s.dv with tMain := none, tSafe := none, fine := 0, div := s.dv.div0 + s.dv.coarse }
          else { s.dv with
            fine := 0, div := s.dv.div0 + s.dv.coarse, dstate := .off, tMain := some (s.now + off),
            tSafe := some (s.now + off + s.par.safetyMargin) } }) ∧
    (∀ d, s.dv.dstate = .off → s.dv.tMain = some d → d ≤ s.now →
      let on := onTime s.par.onRounding s.dv.period s.dv.calTgt
      let fine := directionSign s.par.calDir * calSgn s.dv.calTgt
      exec .mainFire s = .next { s with
        result := .none, events := [],
        dv := { s.dv with
          calAct := s.dv.calTgt, periodAct := s.dv.period,
          fine := if on = 0 then 0 else fine,
          div := if on = 0 then s.dv.div0 + s.dv.coarse else s.dv.div0 + s.dv.coarse + fine,
          dstate := if on = 0 then .idle else .on,
          tMain := if on = 0 then none else some (s.now + on),
          tSafe := if on = 0 then none else some (s.now + on + s.par.safetyMargin) } }) ∧
    (s.dv.tMain = none → exec .mainFire s = .next { s with result := .none, events := [] })

/-- 43_clock_adjust.md R222: SAFE_FIRE counts and records SAFETY_TIMEOUT, and leaves the divider as the re-issued
MICRO_ADJUST of the last request leaves it from Idle with FINE 0: a fresh cycle while the engine runs, a cancel otherwise. A
stale callback does nothing (R227). -/
def Obligations.SafeFireReapplies : Prop :=
  ∀ (s : State), permits .safeFire s = true → s.canLock .div = true → CalInRange s →
    (s.dv.tSafe = none → exec .safeFire s = .next { s with result := .none, events := [] }) ∧
    (∀ d, s.dv.tSafe = some d → d ≤ s.now →
      exec .safeFire s = .next { s with
        result := .none, events := [.safetyTimeout], st := { s.st with safetyCount := s.st.safetyCount + 1 },
        dv :=
          if running s.mode = true then
            beginCycle s.par s.now { s.dv with
              coarse := directionSign s.par.calDir * calSgn s.dv.calTgt * calInt s.dv.calTgt }
          else { s.dv with
            fine := 0, div := s.dv.div0 + s.dv.coarse, dstate := .idle, tMain := none, tSafe := none } })

/-- 43_clock_adjust.md R232: LOAD_CAL with operands in range writes the target and the period while the engine is stopped and
nothing else; a running engine refuses it without a change. An omitted period is PERIOD, as MICRO_ADJUST's (R215). -/
def Obligations.LoadCalStoresTarget : Prop :=
  ∀ (s : State) (c : Rat) (P : Option Int), permits (.loadCal (.finite c) P) s = true →
    -s.par.calMax ≤ c → c ≤ s.par.calMax → 0 < P.getD s.dv.period →
    (running s.mode = false → s.canLock .div = true →
      exec (.loadCal (.finite c) P) s = .next { s with
        result := .none, events := [], dv := { s.dv with calTgt := c, period := (P.getD s.dv.period).toNat } }) ∧
    (running s.mode = true → exec (.loadCal (.finite c) P) s = .next { s with result := .none, events := [] })

/-- 43_clock_adjust.md R225: the mean of DIV over one complete cycle of the last request, its callbacks on their deadlines,
and how near it is to the requested fraction of a step. -/
def Obligations.MeanDividerIsFractional : Prop :=
  ∀ (p : Params) (now : Nat) (d : Divider), 0 < d.period → d.coarse = coarseOf p.calDir d.calTgt →
    let on := onTime p.onRounding d.period d.calTgt
    let off := offTime p.onRounding d.period d.calTgt
    let d1 := beginCycle p now d
    let d2 := mainFireDivider p (now + on) d1
    let mean : Rat := (on * d1.div + off * (if off = 0 then 0 else d2.div)) / d.period
    mean = d.div0 + directionSign p.calDir * calSgn d.calTgt * (calInt d.calTgt + (on : Rat) / d.period) ∧
    |mean - (d.div0 + directionSign p.calDir * d.calTgt)| < 1 / d.period

/-! ### Engine control -/

/-- 44_engine_control.md R251 with the prefill of 70_reset_and_hazards.md R305: START from the stopped engine clears the last
session, fills TXQ with the packets of three frames, advances TX by three, runs in the mode asked for and begins the
calibration's cycle. -/
def Obligations.StartBeginsSession : Prop :=
  ∀ (s : State) (arg : ModeArg) (m : Mode), permits (.start arg) s = true → s.mode = .halted → s.canLock .tx = true →
    s.canLock .div = true → CalInRange s →
    (arg = .run ∧ m = .run ∨ arg = .monitor ∧ m = .monitor ∨
      ∃ n, arg = .jamming n ∧ m = .jamming n ∧ 1 ≤ n ∧ n ≤ s.par.jamMax) →
    ∃ s', exec (.start arg) s = .next s' ∧ s' = { s with
      result := .bool true, events := [], mode := m, stopReq := false,
      st := { s.st with underflow := false, rxOvf := false, safetyCount := 0 },
      syncph := !s.par.syncphReset, txq := streamWords s.par 3 s.tx s.par.syncphReset, rxq := [],
      tx := Timecode.stepN 3 s.tx, lineOut := .driven,
      echoq := s.echoq ++ [s.tx.raw, s.tx.next.raw, s.tx.next.next.raw].take (s.par.echoqDepth - s.echoq.length),
      dv := beginCycle s.par s.now { s.dv with
        div0 := nominalDivider s.par.div0 s.tx.fps,
        coarse := directionSign s.par.calDir * calSgn s.dv.calTgt * calInt s.dv.calTgt } } ∧
    s'.txq.length = (if s.par.syncphReset = true then 8 else 7)

/-- 44_engine_control.md R251: START is refused with false, and changes nothing, while the engine runs and for an operand
that is no running mode. A SET_MODE operand that is not a mode at all, for which R253 has no line, is refused the same way:
this model's choice (notes/assumptions/27.md). -/
def Obligations.ModeOperandsAreChecked : Prop :=
  ∀ (s : State) (arg : ModeArg),
    (permits (.start arg) s = true →
      (running s.mode = true ∨ arg = .halted ∨ (∃ tag, arg = .notAMode tag) ∨
        ∃ n, arg = .jamming n ∧ ¬(1 ≤ n ∧ n ≤ s.par.jamMax)) →
      exec (.start arg) s = .next { s with result := .bool false, events := [] }) ∧
    (permits (.setMode arg) s = true → (∃ tag, arg = .notAMode tag) →
      exec (.setMode arg) s = .next { s with result := .bool false, events := [] })

/-- 44_engine_control.md R252: STOP sets STOPREQ; the RT agent, on seeing it, cancels the timers, leaves the output low and
the engine halted, with LINE_TX and LINE_RX disabled. That the second half is an act of RT at the port is this model's
(notes/assumptions/22.md), and so is that a disabled line machine's operation is answered as held (notes/assumptions/5.md,
notes/assumptions/6.md, notes/assumptions/19.md). -/
def Obligations.StopHaltsInTwoHalves : Prop :=
  (∀ (s : State), permits .stop s = true →
    exec .stop s = .next { s with result := .none, events := [], stopReq := true }) ∧
  (∀ (s : State), s.agent = .rt → s.stopReq = true → s.canLock .div = true →
    ∃ s', perform .stopCheck s = .next s' ∧ s' = { s with
      result := .none, events := [], mode := .halted, lineOut := .low,
      dv := { s.dv with tMain := none, tSafe := none, dstate := .idle } } ∧
    exec .lineTxPop { s' with agent := .lineTx } = .next { s' with agent := .lineTx, result := .held, events := [] } ∧
    ∀ w, exec (.lineRxPush w) { s' with agent := .lineRx } =
      .next { s' with agent := .lineRx, result := .held, events := [] })

/-- 44_engine_control.md R253: SET_MODE moves between running modes and nothing else; it neither leaves nor enters Halted,
and a countdown lies in 1 to JAM_MAX. -/
def Obligations.SetModeMovesBetweenRunningModes : Prop :=
  ∀ (s : State) (arg : ModeArg) (m : Mode), permits (.setMode arg) s = true →
    (running s.mode = true →
      (arg = .run ∧ m = .run ∨ arg = .monitor ∧ m = .monitor ∨
        ∃ n, arg = .jamming n ∧ m = .jamming n ∧ 1 ≤ n ∧ n ≤ s.par.jamMax) →
      exec (.setMode arg) s = .next { s with result := .bool true, events := [], mode := m }) ∧
    ((s.mode = .halted ∨ arg = .halted ∨ ∃ n, arg = .jamming n ∧ ¬(1 ≤ n ∧ n ≤ s.par.jamMax)) →
      exec (.setMode arg) s = .next { s with result := .bool false, events := [] })

/-- 44_engine_control.md R254: ACQUIRE takes a free lock, is held while another agent has it, and is refused to its holder;
RELEASE frees a lock its issuer holds and is refused otherwise. That holding is a next state is this model's
(notes/assumptions/5.md). -/
def Obligations.LocksAreExclusive : Prop :=
  ∀ (s : State) (l : Lock),
    (permits (.acquire l) s = true →
      (s.holder l = none →
        exec (.acquire l) s = .next ({ s with result := .none, events := [] }.setHolder l (some s.agent))) ∧
      (∀ a, s.holder l = some a → a ≠ s.agent → exec (.acquire l) s = .next { s with result := .held, events := [] }) ∧
      (s.holder l = some s.agent → exec (.acquire l) s = .refused (.alreadyHeld l))) ∧
    (permits (.release l) s = true →
      (s.holder l = some s.agent →
        exec (.release l) s = .next ({ s with result := .none, events := [] }.setHolder l none)) ∧
      (s.holder l ≠ some s.agent → exec (.release l) s = .refused (.notHeld l)))

/-- 44_engine_control.md R257: JAM_LOAD copies the value, `df` and `clk` of RX into TX and advances it by `k` frames, when the
value is legal at the rate of TX; otherwise it is refused with false and LOAD_REJECT. -/
def Obligations.JamLoadCopiesRxOrRejects : Prop :=
  ∀ (s : State) (k : Nat), permits (.jamLoad k) s = true → s.canLock .rx = true → s.canLock .tx = true →
    if s.rx.hh.toNat < 24 ∧ s.rx.mm.toNat < 60 ∧ s.rx.ss.toNat < 60 ∧ s.rx.ff.toNat < framesPerSecond s.tx.fps ∧
        (s.rx.df = false ∨ rateCode s.tx.fps = 1 ∨ rateCode s.tx.fps = 5) ∧
        ¬(s.rx.df = true ∧ s.rx.ss.toNat = 0 ∧ s.rx.ff.toNat < 2 ∧ s.rx.mm.toNat % 10 ≠ 0) then
      exec (.jamLoad k) s = .next { s with
        result := .bool true, events := [],
        tx := Timecode.stepN k { s.tx with
          hh := s.rx.hh, mm := s.rx.mm, ss := s.rx.ss, ff := s.rx.ff, df := s.rx.df, clk := s.rx.clk } }
    else exec (.jamLoad k) s = .next { s with result := .bool false, events := [.loadReject] }

/-- 20_memory.md R62 and R63, 60_exceptions.md R291: the display software's pop takes the oldest echo word; with ECHOQ empty it
has no step now; no other agent pops ECHOQ. The act at the port, and that it is held while ECHOQ is empty, are this model's
(notes/assumptions/4.md, notes/assumptions/5.md). -/
def Obligations.EchoPopTakesOldest : Prop :=
  ∀ (s : State),
    (∀ w q, s.agent = .ui → s.echoq = w :: q →
      perform .echoPop s = .next { s with result := .word w, events := [], echoq := q }) ∧
    (s.agent = .ui → s.echoq = [] → perform .echoPop s = .next { s with result := .held, events := [] }) ∧
    (s.agent ≠ .ui → perform .echoPop s = .refused (.notPermitted s.agent))

/-- The RT loop, 44_engine_control.md R259 and 41_ltc_encoder.md R177: while the engine runs and no stop is requested a pass
issues RX_POLL, and TX_FRAME exactly when TXQ with the pending sync word is below the watermark of 7; then there is room for
the packet, and TX_FRAME completes unless another agent holds TX.lock. Otherwise the act does nothing, but an RX_POLL under way
goes on; no agent but RT has these acts. The acts at the port are this model's (notes/assumptions/4.md,
notes/assumptions/22.md), and so is that an RX_POLL under way goes on in an engine that is stopped or asked to stop
(notes/assumptions/20.md). -/
def Obligations.RtLoopPollsAndRefills : Prop :=
  ∀ (s : State),
    (s.agent = .rt →
      ((running s.mode = true ∧ s.stopReq = false ∨ s.rxHeld.isSome = true) → perform .poll s = exec .rxPoll s) ∧
      ((running s.mode = false ∨ s.stopReq = true) → s.rxHeld = none →
        perform .poll s = .next { s with result := .none, events := [] }) ∧
      (running s.mode = true → s.stopReq = false → s.txq.length + s.syncph.toNat < 7 →
        perform .refill s = exec .txFrame s ∧ s.txq.length + 2 + s.syncph.toNat ≤ 8 ∧
        (s.canLock .tx = true → ∃ s', perform .refill s = .next s' ∧ s'.result = .none ∧ s'.tx = s.tx.next)) ∧
      ((running s.mode = false ∨ s.stopReq = true ∨ 7 ≤ s.txq.length + s.syncph.toNat) →
        perform .refill s = .next { s with result := .none, events := [] })) ∧
    (s.agent ≠ .rt → perform .poll s = .refused (.notPermitted s.agent) ∧
      perform .refill s = .refused (.notPermitted s.agent))

/-- 70_reset_and_hazards.md R300: a HOST that wants the reset state again rebuilds the stopped block. Every register of
10_state.md R45 has its reset value at the block's own parameters; what is outside the block goes on: the parameters, the time,
the ports and the schedule, what the line encoder has been given and the count of free draws (notes/assumptions/25.md). For any
other agent, and while the engine runs, it is refused. -/
def Obligations.RebuildRestoresReset : Prop :=
  ∀ (s : State),
    (s.agent = .host → running s.mode = false → perform .rebuild s = .next { State.reset with
      syncph := s.par.syncphReset, dv := { State.reset.dv with div := s.par.div0.at30, div0 := s.par.div0.at30 },
      result := .none, events := [], par := s.par, now := s.now, lineWords := s.lineWords, agent := s.agent, draws := s.draws,
      between := s.between, tears := s.tears, newTx := s.newTx, newRx := s.newRx, port := s.port, sched := s.sched }) ∧
    (s.agent ≠ .host ∨ running s.mode = true → perform .rebuild s = .refused (.notPermitted s.agent))

/-! ### The whole machine -/

/-- 10_state.md R45 and 70_reset_and_hazards.md R302: every register at its reset value. -/
def Obligations.ResetValues : Prop :=
  let s := State.reset
  (∀ T ∈ [s.tx, s.rx],
    rateCode T.fps = 0 ∧ T.df = false ∧ T.hh = 0 ∧ T.mm = 0 ∧ T.ss = 0 ∧ T.ff = 0 ∧ T.cf = false ∧ T.clk = false ∧
    T.bgf0 = false ∧ T.bgf2 = false ∧ T.uf1 = 0 ∧ T.uf2 = 0 ∧ T.uf3 = 0 ∧ T.uf4 = 0 ∧ T.uf5 = 0 ∧ T.uf6 = 0 ∧ T.uf7 = 0 ∧
    T.uf8 = 0) ∧
  s.txLock = none ∧ s.rxLock = none ∧ s.divLock = none ∧ s.mode = .halted ∧ s.stopReq = false ∧
  s.syncph = s.par.syncphReset ∧ s.par.syncphReset = true ∧
  s.st = ⟨false, false, false, false, false, 0⟩ ∧ s.txq = [] ∧ s.rxq = [] ∧ s.echoq = [] ∧
  s.dv.div0 = s.par.div0.at30 ∧ s.dv.div = s.par.div0.at30 ∧ s.dv.coarse = 0 ∧ s.dv.fine = 0 ∧ s.dv.calTgt = 0 ∧
  s.dv.calAct = 0 ∧ s.dv.period = 10000 ∧ s.dv.periodAct = 10000 ∧ s.dv.dstate = .idle ∧ s.dv.tMain = none ∧
  s.dv.tSafe = none ∧ s.lineOut = .low

/-- The state after reset satisfies the invariant of the block, whatever the values that reset leaves free. -/
def Obligations.ResetSatisfiesInvariant : Prop := Inv State.reset ∧ FineFollowsPhase State.reset

/-- Every step keeps the invariant of the block, from every state that satisfies it, in whatever order the agents come and
whatever falls between the sub-steps: TX stays legal and DF-legal (40_timecode_ops.md R145), RX's frame number stays one of its
rate (42_ltc_decoder.md R200), the queues within their depths (20_memory.md R63), the divider the sum of its parts
(43_clock_adjust.md R212, 10_state.md R39), the timers paired (10_state.md R41), no cycle in flight in a stopped engine but
between the two steps of UNDERFLOW's entry (60_exceptions.md R273), the output low exactly while stopped (44_engine_control.md
R252), and the parameters as they were (10_state.md R44). While the engine runs FINE is not 0 exactly in an on phase (R212),
and every step keeps that too, but for one that R223 and R227 let leave FINE behind: a CANCEL_DITHER of RT in an on phase. That
this one is let do so is this model's reading (notes/assumptions/24.md). -/
def Obligations.StepKeepsInvariant : Prop :=
  ∀ (s s' : State), Inv s → step s = .next s' → Inv s' ∧ s'.par = s.par ∧
    (FineFollowsPhase s → FineFollowsPhase s' ∨
      ∃ (t : Turn) (turns : List Turn) (form : Form) (bytes left : List Byte) (items : List Item),
        s.sched = t :: turns ∧ t.agent = .rt ∧ takeFirst .rt s.port = some (⟨.rt, .op form bytes⟩, items) ∧
        decode form bytes = some (.cancelDither, left) ∧ running s.mode = true ∧ s.dv.dstate = .on ∧
        s'.dv = { s.dv with dstate := .idle, tMain := none, tSafe := none })

/-- 44_engine_control.md R253, "only START leaves Halted", R251, R252 and 60_exceptions.md R273. An operation that takes the engine
from stopped to running is START; one that stops it is LINE_TX_POP, or TX_FRAME with an UNDERFLOW inside it, and it has taken
UNDERFLOW whole; STOPREQ and the sticky flag are cleared by START alone. Of the acts at the ports none starts the engine; one that
stops it is RT's half of STOP, which needs STOPREQ and leaves the timers off and the output low, or the refill's TX_FRAME; only
HOST's rebuild clears STOPREQ or the flag. That STOP halts at the port is this model's (notes/assumptions/22.md), and so is that an
UNDERFLOW falls inside TX_FRAME and not inside RX_POLL, for which R197 has LINE_RX alone (notes/assumptions/17.md). -/
def Obligations.OnlyStartLeavesHalted : Prop :=
  (∀ (i : Instr) (s s' : State), exec i s = .next s' →
    (running s.mode = false → running s'.mode = true → IsStart i) ∧
    (running s.mode = true → running s'.mode = false →
      (i = .lineTxPop ∨ i = .txFrame) ∧ s'.st.underflow = true ∧ s'.stopReq = true ∧ s'.lineOut = .low ∧
        Event.underflow ∈ s'.events) ∧
    (s.stopReq = true → s'.stopReq = false → IsStart i) ∧ (s.st.underflow = true → s'.st.underflow = false → IsStart i)) ∧
  (∀ (act : Act) (s s' : State), (∀ form bytes, act ≠ .op form bytes) → perform act s = .next s' →
    (running s.mode = false → running s'.mode = false) ∧
    (running s.mode = true → running s'.mode = false →
      s'.lineOut = .low ∧ s'.stopReq = true ∧
        (act = .stopCheck ∧ s.stopReq = true ∧ s'.dv.tMain = none ∧ s'.dv.tSafe = none ∧ s'.dv.dstate = .idle ∨
          act = .refill ∧ s'.st.underflow = true)) ∧
    (s.stopReq = true → s'.stopReq = false → act = .rebuild) ∧
    (s.st.underflow = true → s'.st.underflow = false → act = .rebuild))

/-- Which operations write each piece of state: the field groups of a register file (10_state.md R30; 42_ltc_decoder.md R190:
the decoder never writes the rate of RX), MODE, STOPREQ, SYNCPH and each status flag (10_state.md R32; 70_reset_and_hazards.md
R312: only TX_FRAME and START write SYNCPH), the divider registers (10_state.md R38), the locks (44_engine_control.md R254),
the queues with their one producer and one consumer (20_memory.md R63 to R66), the line side, and the parameters (10_state.md
R44). TX_FRAME stands beside LINE_TX_POP and LINE_RX_PUSH, and RX_POLL beside LINE_RX_PUSH, for the LINE steps that fall
between their sub-steps (notes/assumptions/17.md). Of the acts at the ports, poll and refill write what RX_POLL and TX_FRAME
do, the echo pop ECHOQ, RT's half of STOP the mode, the output and the timers, the counted steps the time of their file
(notes/assumptions/4.md); the rebuild is HOST's, of a stopped engine. -/
def Obligations.WritersOfEachRegister : Prop :=
  (∀ (i : Instr) (s s' : State), exec i s = .next s' →
    (∀ t,
      ((s'.tc t).fps ≠ (s.tc t).fps → SetsRate t i) ∧
      ((s'.tc t).time ≠ (s.tc t).time → SetsRate t i ∨ i = .nextFrame t ∨ i = .prevFrame t ∨
        (∃ hh mm ss ff, i = .loadTc t hh mm ss ff) ∨ (∃ str, i = .fromAscii t str) ∨ t = .rx ∧ Decodes i ∨
        t = .tx ∧ (i = .txFrame ∨ IsStart i ∨ IsJamLoad i)) ∧
      ((s'.tc t).df ≠ (s.tc t).df → SetsRate t i ∨ t = .rx ∧ Decodes i ∨ t = .tx ∧ IsJamLoad i) ∧
      ((s'.tc t).clk ≠ (s.tc t).clk → SetsFlags t i ∨ t = .rx ∧ Decodes i ∨ t = .tx ∧ IsJamLoad i) ∧
      (((s'.tc t).cf, (s'.tc t).bgf0, (s'.tc t).bgf2) ≠ ((s.tc t).cf, (s.tc t).bgf0, (s.tc t).bgf2) →
        SetsFlags t i ∨ t = .rx ∧ Decodes i) ∧
      (((s'.tc t).uf1, (s'.tc t).uf2, (s'.tc t).uf3, (s'.tc t).uf4, (s'.tc t).uf5, (s'.tc t).uf6, (s'.tc t).uf7, (s'.tc t).uf8) ≠
          ((s.tc t).uf1, (s.tc t).uf2, (s.tc t).uf3, (s.tc t).uf4, (s.tc t).uf5, (s.tc t).uf6, (s.tc t).uf7, (s.tc t).uf8) →
        (∃ n1 n2 n3 n4 n5 n6 n7 n8, i = .setUb t n1 n2 n3 n4 n5 n6 n7 n8) ∨ t = .rx ∧ Decodes i)) ∧
    (s'.mode ≠ s.mode → IsStart i ∨ (∃ m, i = .setMode m) ∨ i = .lineTxPop ∨ i = .txFrame) ∧
    (s'.stopReq ≠ s.stopReq → IsStart i ∨ i = .stop ∨ i = .lineTxPop ∨ i = .txFrame) ∧
    (s'.syncph ≠ s.syncph → i = .txFrame ∨ IsStart i) ∧
    (s'.st.underflow ≠ s.st.underflow → IsStart i ∨ i = .lineTxPop ∨ i = .txFrame) ∧
    (s'.st.rxOk ≠ s.st.rxOk → Decodes i) ∧ (s'.st.rxPerr ≠ s.st.rxPerr → Decodes i) ∧
    (s'.st.rxSyncErr ≠ s.st.rxSyncErr →
      (∃ x0 x1 x2, i = .decPacket3 x0 x1 x2) ∨ ∃ w0 w1 s16, i = .decFrame80 w0 w1 s16) ∧
    (s'.st.rxOvf ≠ s.st.rxOvf → IsStart i ∨ (∃ w, i = .lineRxPush w) ∨ i = .rxPoll ∨ i = .txFrame) ∧
    (s'.st.safetyCount ≠ s.st.safetyCount → IsStart i ∨ i = .safeFire) ∧
    (s'.dv ≠ s.dv → (∃ c p, i = .microAdjust c p) ∨ i = .mainFire ∨ i = .safeFire ∨ i = .cancelDither ∨
      (∃ c p, i = .loadCal c p) ∨ IsStart i) ∧
    (s'.dv.div0 ≠ s.dv.div0 → IsStart i) ∧
    ((s'.dv.calTgt, s'.dv.period) ≠ (s.dv.calTgt, s.dv.period) →
      (∃ c p, i = .microAdjust c p) ∨ ∃ c p, i = .loadCal c p) ∧
    (∀ l, s'.holder l ≠ s.holder l → i = .acquire l ∨ i = .release l) ∧
    (s'.txq ≠ s.txq → i = .txFrame ∨ IsStart i ∨ i = .lineTxPop) ∧
    (s'.rxq ≠ s.rxq → (∃ w, i = .lineRxPush w) ∨ i = .rxPoll ∨ i = .txFrame ∨ IsStart i) ∧
    (s'.rxHeld ≠ s.rxHeld → i = .rxPoll) ∧ (s'.echoq ≠ s.echoq → i = .txFrame ∨ IsStart i) ∧
    (s'.lineWords ≠ s.lineWords → i = .lineTxPop ∨ i = .txFrame) ∧
    (s'.lineOut ≠ s.lineOut → IsStart i ∨ i = .lineTxPop ∨ i = .txFrame) ∧ s'.par = s.par) ∧
  (∀ (act : Act) (s s' : State), perform act s = .next s' →
    (act = .poll → exec .rxPoll s = .next s' ∨ s' = { s with result := .none, events := [] }) ∧
    (act = .refill → exec .txFrame s = .next s' ∨ s' = { s with result := .none, events := [] }) ∧
    (act = .echoPop → s.agent = .ui ∧ s' = { s with result := s'.result, events := [], echoq := s'.echoq }) ∧
    (act = .stopCheck → s.agent = .rt ∧ s' = { s with
      result := s'.result, events := [], mode := s'.mode, lineOut := s'.lineOut,
      dv := { s.dv with tMain := s'.dv.tMain, tSafe := s'.dv.tSafe, dstate := s'.dv.dstate } }) ∧
    (∀ t n, act = .stepCount t n ∨ act = .prevFrameCount t n → ∃ hh mm ss ff,
      s' = ({ s with result := s'.result, events := [] } : State).setTc t
        { s.tc t with hh := hh, mm := mm, ss := ss, ff := ff }) ∧
    (act = .rebuild → s.agent = .host ∧ running s.mode = false ∧ s'.par = s.par))
end

