-- ==== Sys2Proof/Laws/State.lean ====
section
/-! SUPPORT. What each named update of the state does to each field, so that no later proof unfolds a record update. -/

namespace Sys2Proof.Machine

variable (s : State)

/-! ### setSt -/

@[simp] theorem State.setSt_tx (v : Status) : (s.setSt v).tx = s.tx := rfl
@[simp] theorem State.setSt_rx (v : Status) : (s.setSt v).rx = s.rx := rfl
@[simp] theorem State.setSt_txLock (v : Status) : (s.setSt v).txLock = s.txLock := rfl
@[simp] theorem State.setSt_rxLock (v : Status) : (s.setSt v).rxLock = s.rxLock := rfl
@[simp] theorem State.setSt_divLock (v : Status) : (s.setSt v).divLock = s.divLock := rfl
@[simp] theorem State.setSt_mode (v : Status) : (s.setSt v).mode = s.mode := rfl
@[simp] theorem State.setSt_stopReq (v : Status) : (s.setSt v).stopReq = s.stopReq := rfl
@[simp] theorem State.setSt_syncph (v : Status) : (s.setSt v).syncph = s.syncph := rfl
@[simp] theorem State.setSt_st (v : Status) : (s.setSt v).st = v := rfl
@[simp] theorem State.setSt_dv (v : Status) : (s.setSt v).dv = s.dv := rfl
@[simp] theorem State.setSt_txq (v : Status) : (s.setSt v).txq = s.txq := rfl
@[simp] theorem State.setSt_rxq (v : Status) : (s.setSt v).rxq = s.rxq := rfl
@[simp] theorem State.setSt_echoq (v : Status) : (s.setSt v).echoq = s.echoq := rfl
@[simp] theorem State.setSt_rxHeld (v : Status) : (s.setSt v).rxHeld = s.rxHeld := rfl
@[simp] theorem State.setSt_lineOut (v : Status) : (s.setSt v).lineOut = s.lineOut := rfl
@[simp] theorem State.setSt_lineWords (v : Status) : (s.setSt v).lineWords = s.lineWords := rfl
@[simp] theorem State.setSt_now (v : Status) : (s.setSt v).now = s.now := rfl
@[simp] theorem State.setSt_par (v : Status) : (s.setSt v).par = s.par := rfl
@[simp] theorem State.setSt_agent (v : Status) : (s.setSt v).agent = s.agent := rfl
@[simp] theorem State.setSt_result (v : Status) : (s.setSt v).result = s.result := rfl
@[simp] theorem State.setSt_events (v : Status) : (s.setSt v).events = s.events := rfl
@[simp] theorem State.setSt_draws (v : Status) : (s.setSt v).draws = s.draws := rfl
@[simp] theorem State.setSt_between (v : Status) : (s.setSt v).between = s.between := rfl
@[simp] theorem State.setSt_tears (v : Status) : (s.setSt v).tears = s.tears := rfl
@[simp] theorem State.setSt_newTx (v : Status) : (s.setSt v).newTx = s.newTx := rfl
@[simp] theorem State.setSt_newRx (v : Status) : (s.setSt v).newRx = s.newRx := rfl
@[simp] theorem State.setSt_inProgress (v : Status) : (s.setSt v).inProgress = s.inProgress := rfl
@[simp] theorem State.setSt_port (v : Status) : (s.setSt v).port = s.port := rfl
@[simp] theorem State.setSt_sched (v : Status) : (s.setSt v).sched = s.sched := rfl

/-! ### setDv -/

@[simp] theorem State.setDv_tx (v : Divider) : (s.setDv v).tx = s.tx := rfl
@[simp] theorem State.setDv_rx (v : Divider) : (s.setDv v).rx = s.rx := rfl
@[simp] theorem State.setDv_txLock (v : Divider) : (s.setDv v).txLock = s.txLock := rfl
@[simp] theorem State.setDv_rxLock (v : Divider) : (s.setDv v).rxLock = s.rxLock := rfl
@[simp] theorem State.setDv_divLock (v : Divider) : (s.setDv v).divLock = s.divLock := rfl
@[simp] theorem State.setDv_mode (v : Divider) : (s.setDv v).mode = s.mode := rfl
@[simp] theorem State.setDv_stopReq (v : Divider) : (s.setDv v).stopReq = s.stopReq := rfl
@[simp] theorem State.setDv_syncph (v : Divider) : (s.setDv v).syncph = s.syncph := rfl
@[simp] theorem State.setDv_st (v : Divider) : (s.setDv v).st = s.st := rfl
@[simp] theorem State.setDv_dv (v : Divider) : (s.setDv v).dv = v := rfl
@[simp] theorem State.setDv_txq (v : Divider) : (s.setDv v).txq = s.txq := rfl
@[simp] theorem State.setDv_rxq (v : Divider) : (s.setDv v).rxq = s.rxq := rfl
@[simp] theorem State.setDv_echoq (v : Divider) : (s.setDv v).echoq = s.echoq := rfl
@[simp] theorem State.setDv_rxHeld (v : Divider) : (s.setDv v).rxHeld = s.rxHeld := rfl
@[simp] theorem State.setDv_lineOut (v : Divider) : (s.setDv v).lineOut = s.lineOut := rfl
@[simp] theorem State.setDv_lineWords (v : Divider) : (s.setDv v).lineWords = s.lineWords := rfl
@[simp] theorem State.setDv_now (v : Divider) : (s.setDv v).now = s.now := rfl
@[simp] theorem State.setDv_par (v : Divider) : (s.setDv v).par = s.par := rfl
@[simp] theorem State.setDv_agent (v : Divider) : (s.setDv v).agent = s.agent := rfl
@[simp] theorem State.setDv_result (v : Divider) : (s.setDv v).result = s.result := rfl
@[simp] theorem State.setDv_events (v : Divider) : (s.setDv v).events = s.events := rfl
@[simp] theorem State.setDv_draws (v : Divider) : (s.setDv v).draws = s.draws := rfl
@[simp] theorem State.setDv_between (v : Divider) : (s.setDv v).between = s.between := rfl
@[simp] theorem State.setDv_tears (v : Divider) : (s.setDv v).tears = s.tears := rfl
@[simp] theorem State.setDv_newTx (v : Divider) : (s.setDv v).newTx = s.newTx := rfl
@[simp] theorem State.setDv_newRx (v : Divider) : (s.setDv v).newRx = s.newRx := rfl
@[simp] theorem State.setDv_inProgress (v : Divider) : (s.setDv v).inProgress = s.inProgress := rfl
@[simp] theorem State.setDv_port (v : Divider) : (s.setDv v).port = s.port := rfl
@[simp] theorem State.setDv_sched (v : Divider) : (s.setDv v).sched = s.sched := rfl

/-! ### answer -/

@[simp] theorem State.answer_tx (r : Result) : (s.answer r).tx = s.tx := rfl
@[simp] theorem State.answer_rx (r : Result) : (s.answer r).rx = s.rx := rfl
@[simp] theorem State.answer_txLock (r : Result) : (s.answer r).txLock = s.txLock := rfl
@[simp] theorem State.answer_rxLock (r : Result) : (s.answer r).rxLock = s.rxLock := rfl
@[simp] theorem State.answer_divLock (r : Result) : (s.answer r).divLock = s.divLock := rfl
@[simp] theorem State.answer_mode (r : Result) : (s.answer r).mode = s.mode := rfl
@[simp] theorem State.answer_stopReq (r : Result) : (s.answer r).stopReq = s.stopReq := rfl
@[simp] theorem State.answer_syncph (r : Result) : (s.answer r).syncph = s.syncph := rfl
@[simp] theorem State.answer_st (r : Result) : (s.answer r).st = s.st := rfl
@[simp] theorem State.answer_dv (r : Result) : (s.answer r).dv = s.dv := rfl
@[simp] theorem State.answer_txq (r : Result) : (s.answer r).txq = s.txq := rfl
@[simp] theorem State.answer_rxq (r : Result) : (s.answer r).rxq = s.rxq := rfl
@[simp] theorem State.answer_echoq (r : Result) : (s.answer r).echoq = s.echoq := rfl
@[simp] theorem State.answer_rxHeld (r : Result) : (s.answer r).rxHeld = s.rxHeld := rfl
@[simp] theorem State.answer_lineOut (r : Result) : (s.answer r).lineOut = s.lineOut := rfl
@[simp] theorem State.answer_lineWords (r : Result) : (s.answer r).lineWords = s.lineWords := rfl
@[simp] theorem State.answer_now (r : Result) : (s.answer r).now = s.now := rfl
@[simp] theorem State.answer_par (r : Result) : (s.answer r).par = s.par := rfl
@[simp] theorem State.answer_agent (r : Result) : (s.answer r).agent = s.agent := rfl
@[simp] theorem State.answer_result (r : Result) : (s.answer r).result = r := rfl
@[simp] theorem State.answer_events (r : Result) : (s.answer r).events = s.events := rfl
@[simp] theorem State.answer_draws (r : Result) : (s.answer r).draws = s.draws := rfl
@[simp] theorem State.answer_between (r : Result) : (s.answer r).between = s.between := rfl
@[simp] theorem State.answer_tears (r : Result) : (s.answer r).tears = s.tears := rfl
@[simp] theorem State.answer_newTx (r : Result) : (s.answer r).newTx = s.newTx := rfl
@[simp] theorem State.answer_newRx (r : Result) : (s.answer r).newRx = s.newRx := rfl
@[simp] theorem State.answer_inProgress (r : Result) : (s.answer r).inProgress = s.inProgress := rfl
@[simp] theorem State.answer_port (r : Result) : (s.answer r).port = s.port := rfl
@[simp] theorem State.answer_sched (r : Result) : (s.answer r).sched = s.sched := rfl

/-! ### raise -/

@[simp] theorem State.raise_tx (e : Event) : (s.raise e).tx = s.tx := rfl
@[simp] theorem State.raise_rx (e : Event) : (s.raise e).rx = s.rx := rfl
@[simp] theorem State.raise_txLock (e : Event) : (s.raise e).txLock = s.txLock := rfl
@[simp] theorem State.raise_rxLock (e : Event) : (s.raise e).rxLock = s.rxLock := rfl
@[simp] theorem State.raise_divLock (e : Event) : (s.raise e).divLock = s.divLock := rfl
@[simp] theorem State.raise_mode (e : Event) : (s.raise e).mode = s.mode := rfl
@[simp] theorem State.raise_stopReq (e : Event) : (s.raise e).stopReq = s.stopReq := rfl
@[simp] theorem State.raise_syncph (e : Event) : (s.raise e).syncph = s.syncph := rfl
@[simp] theorem State.raise_st (e : Event) : (s.raise e).st = s.st := rfl
@[simp] theorem State.raise_dv (e : Event) : (s.raise e).dv = s.dv := rfl
@[simp] theorem State.raise_txq (e : Event) : (s.raise e).txq = s.txq := rfl
@[simp] theorem State.raise_rxq (e : Event) : (s.raise e).rxq = s.rxq := rfl
@[simp] theorem State.raise_echoq (e : Event) : (s.raise e).echoq = s.echoq := rfl
@[simp] theorem State.raise_rxHeld (e : Event) : (s.raise e).rxHeld = s.rxHeld := rfl
@[simp] theorem State.raise_lineOut (e : Event) : (s.raise e).lineOut = s.lineOut := rfl
@[simp] theorem State.raise_lineWords (e : Event) : (s.raise e).lineWords = s.lineWords := rfl
@[simp] theorem State.raise_now (e : Event) : (s.raise e).now = s.now := rfl
@[simp] theorem State.raise_par (e : Event) : (s.raise e).par = s.par := rfl
@[simp] theorem State.raise_agent (e : Event) : (s.raise e).agent = s.agent := rfl
@[simp] theorem State.raise_result (e : Event) : (s.raise e).result = s.result := rfl
@[simp] theorem State.raise_events (e : Event) : (s.raise e).events = s.events ++ [e] := rfl
@[simp] theorem State.raise_draws (e : Event) : (s.raise e).draws = s.draws := rfl
@[simp] theorem State.raise_between (e : Event) : (s.raise e).between = s.between := rfl
@[simp] theorem State.raise_tears (e : Event) : (s.raise e).tears = s.tears := rfl
@[simp] theorem State.raise_newTx (e : Event) : (s.raise e).newTx = s.newTx := rfl
@[simp] theorem State.raise_newRx (e : Event) : (s.raise e).newRx = s.newRx := rfl
@[simp] theorem State.raise_inProgress (e : Event) : (s.raise e).inProgress = s.inProgress := rfl
@[simp] theorem State.raise_port (e : Event) : (s.raise e).port = s.port := rfl
@[simp] theorem State.raise_sched (e : Event) : (s.raise e).sched = s.sched := rfl

/-! ### opened -/

@[simp] theorem State.opened_tx : (s.opened).tx = s.tx := rfl
@[simp] theorem State.opened_rx : (s.opened).rx = s.rx := rfl
@[simp] theorem State.opened_txLock : (s.opened).txLock = s.txLock := rfl
@[simp] theorem State.opened_rxLock : (s.opened).rxLock = s.rxLock := rfl
@[simp] theorem State.opened_divLock : (s.opened).divLock = s.divLock := rfl
@[simp] theorem State.opened_mode : (s.opened).mode = s.mode := rfl
@[simp] theorem State.opened_stopReq : (s.opened).stopReq = s.stopReq := rfl
@[simp] theorem State.opened_syncph : (s.opened).syncph = s.syncph := rfl
@[simp] theorem State.opened_st : (s.opened).st = s.st := rfl
@[simp] theorem State.opened_dv : (s.opened).dv = s.dv := rfl
@[simp] theorem State.opened_txq : (s.opened).txq = s.txq := rfl
@[simp] theorem State.opened_rxq : (s.opened).rxq = s.rxq := rfl
@[simp] theorem State.opened_echoq : (s.opened).echoq = s.echoq := rfl
@[simp] theorem State.opened_rxHeld : (s.opened).rxHeld = s.rxHeld := rfl
@[simp] theorem State.opened_lineOut : (s.opened).lineOut = s.lineOut := rfl
@[simp] theorem State.opened_lineWords : (s.opened).lineWords = s.lineWords := rfl
@[simp] theorem State.opened_now : (s.opened).now = s.now := rfl
@[simp] theorem State.opened_par : (s.opened).par = s.par := rfl
@[simp] theorem State.opened_agent : (s.opened).agent = s.agent := rfl
@[simp] theorem State.opened_result : (s.opened).result = .none := rfl
@[simp] theorem State.opened_events : (s.opened).events = [] := rfl
@[simp] theorem State.opened_draws : (s.opened).draws = s.draws := rfl
@[simp] theorem State.opened_between : (s.opened).between = s.between := rfl
@[simp] theorem State.opened_tears : (s.opened).tears = s.tears := rfl
@[simp] theorem State.opened_newTx : (s.opened).newTx = s.newTx := rfl
@[simp] theorem State.opened_newRx : (s.opened).newRx = s.newRx := rfl
@[simp] theorem State.opened_inProgress : (s.opened).inProgress = s.inProgress := rfl
@[simp] theorem State.opened_port : (s.opened).port = s.port := rfl
@[simp] theorem State.opened_sched : (s.opened).sched = s.sched := rfl

/-! ### heldUp -/

@[simp] theorem State.heldUp_tx : (s.heldUp).tx = s.tx := rfl
@[simp] theorem State.heldUp_rx : (s.heldUp).rx = s.rx := rfl
@[simp] theorem State.heldUp_txLock : (s.heldUp).txLock = s.txLock := rfl
@[simp] theorem State.heldUp_rxLock : (s.heldUp).rxLock = s.rxLock := rfl
@[simp] theorem State.heldUp_divLock : (s.heldUp).divLock = s.divLock := rfl
@[simp] theorem State.heldUp_mode : (s.heldUp).mode = s.mode := rfl
@[simp] theorem State.heldUp_stopReq : (s.heldUp).stopReq = s.stopReq := rfl
@[simp] theorem State.heldUp_syncph : (s.heldUp).syncph = s.syncph := rfl
@[simp] theorem State.heldUp_st : (s.heldUp).st = s.st := rfl
@[simp] theorem State.heldUp_dv : (s.heldUp).dv = s.dv := rfl
@[simp] theorem State.heldUp_txq : (s.heldUp).txq = s.txq := rfl
@[simp] theorem State.heldUp_rxq : (s.heldUp).rxq = s.rxq := rfl
@[simp] theorem State.heldUp_echoq : (s.heldUp).echoq = s.echoq := rfl
@[simp] theorem State.heldUp_rxHeld : (s.heldUp).rxHeld = s.rxHeld := rfl
@[simp] theorem State.heldUp_lineOut : (s.heldUp).lineOut = s.lineOut := rfl
@[simp] theorem State.heldUp_lineWords : (s.heldUp).lineWords = s.lineWords := rfl
@[simp] theorem State.heldUp_now : (s.heldUp).now = s.now := rfl
@[simp] theorem State.heldUp_par : (s.heldUp).par = s.par := rfl
@[simp] theorem State.heldUp_agent : (s.heldUp).agent = s.agent := rfl
@[simp] theorem State.heldUp_result : (s.heldUp).result = .held := rfl
@[simp] theorem State.heldUp_events : (s.heldUp).events = [] := rfl
@[simp] theorem State.heldUp_draws : (s.heldUp).draws = s.draws := rfl
@[simp] theorem State.heldUp_between : (s.heldUp).between = s.between := rfl
@[simp] theorem State.heldUp_tears : (s.heldUp).tears = s.tears := rfl
@[simp] theorem State.heldUp_newTx : (s.heldUp).newTx = s.newTx := rfl
@[simp] theorem State.heldUp_newRx : (s.heldUp).newRx = s.newRx := rfl
@[simp] theorem State.heldUp_inProgress : (s.heldUp).inProgress = s.inProgress := rfl
@[simp] theorem State.heldUp_port : (s.heldUp).port = s.port := rfl
@[simp] theorem State.heldUp_sched : (s.heldUp).sched = s.sched := rfl

/-! ### pushTx -/

@[simp] theorem State.pushTx_tx (w : Word) : (s.pushTx w).tx = s.tx := rfl
@[simp] theorem State.pushTx_rx (w : Word) : (s.pushTx w).rx = s.rx := rfl
@[simp] theorem State.pushTx_txLock (w : Word) : (s.pushTx w).txLock = s.txLock := rfl
@[simp] theorem State.pushTx_rxLock (w : Word) : (s.pushTx w).rxLock = s.rxLock := rfl
@[simp] theorem State.pushTx_divLock (w : Word) : (s.pushTx w).divLock = s.divLock := rfl
@[simp] theorem State.pushTx_mode (w : Word) : (s.pushTx w).mode = s.mode := rfl
@[simp] theorem State.pushTx_stopReq (w : Word) : (s.pushTx w).stopReq = s.stopReq := rfl
@[simp] theorem State.pushTx_syncph (w : Word) : (s.pushTx w).syncph = s.syncph := rfl
@[simp] theorem State.pushTx_st (w : Word) : (s.pushTx w).st = s.st := rfl
@[simp] theorem State.pushTx_dv (w : Word) : (s.pushTx w).dv = s.dv := rfl
@[simp] theorem State.pushTx_txq (w : Word) : (s.pushTx w).txq = pushWord Config.txqDepth s.txq w := rfl
@[simp] theorem State.pushTx_rxq (w : Word) : (s.pushTx w).rxq = s.rxq := rfl
@[simp] theorem State.pushTx_echoq (w : Word) : (s.pushTx w).echoq = s.echoq := rfl
@[simp] theorem State.pushTx_rxHeld (w : Word) : (s.pushTx w).rxHeld = s.rxHeld := rfl
@[simp] theorem State.pushTx_lineOut (w : Word) : (s.pushTx w).lineOut = s.lineOut := rfl
@[simp] theorem State.pushTx_lineWords (w : Word) : (s.pushTx w).lineWords = s.lineWords := rfl
@[simp] theorem State.pushTx_now (w : Word) : (s.pushTx w).now = s.now := rfl
@[simp] theorem State.pushTx_par (w : Word) : (s.pushTx w).par = s.par := rfl
@[simp] theorem State.pushTx_agent (w : Word) : (s.pushTx w).agent = s.agent := rfl
@[simp] theorem State.pushTx_result (w : Word) : (s.pushTx w).result = s.result := rfl
@[simp] theorem State.pushTx_events (w : Word) : (s.pushTx w).events = s.events := rfl
@[simp] theorem State.pushTx_draws (w : Word) : (s.pushTx w).draws = s.draws := rfl
@[simp] theorem State.pushTx_between (w : Word) : (s.pushTx w).between = s.between := rfl
@[simp] theorem State.pushTx_tears (w : Word) : (s.pushTx w).tears = s.tears := rfl
@[simp] theorem State.pushTx_newTx (w : Word) : (s.pushTx w).newTx = s.newTx := rfl
@[simp] theorem State.pushTx_newRx (w : Word) : (s.pushTx w).newRx = s.newRx := rfl
@[simp] theorem State.pushTx_inProgress (w : Word) : (s.pushTx w).inProgress = s.inProgress := rfl
@[simp] theorem State.pushTx_port (w : Word) : (s.pushTx w).port = s.port := rfl
@[simp] theorem State.pushTx_sched (w : Word) : (s.pushTx w).sched = s.sched := rfl

/-! ### pushEcho -/

@[simp] theorem State.pushEcho_tx (w : Word) : (s.pushEcho w).tx = s.tx := rfl
@[simp] theorem State.pushEcho_rx (w : Word) : (s.pushEcho w).rx = s.rx := rfl
@[simp] theorem State.pushEcho_txLock (w : Word) : (s.pushEcho w).txLock = s.txLock := rfl
@[simp] theorem State.pushEcho_rxLock (w : Word) : (s.pushEcho w).rxLock = s.rxLock := rfl
@[simp] theorem State.pushEcho_divLock (w : Word) : (s.pushEcho w).divLock = s.divLock := rfl
@[simp] theorem State.pushEcho_mode (w : Word) : (s.pushEcho w).mode = s.mode := rfl
@[simp] theorem State.pushEcho_stopReq (w : Word) : (s.pushEcho w).stopReq = s.stopReq := rfl
@[simp] theorem State.pushEcho_syncph (w : Word) : (s.pushEcho w).syncph = s.syncph := rfl
@[simp] theorem State.pushEcho_st (w : Word) : (s.pushEcho w).st = s.st := rfl
@[simp] theorem State.pushEcho_dv (w : Word) : (s.pushEcho w).dv = s.dv := rfl
@[simp] theorem State.pushEcho_txq (w : Word) : (s.pushEcho w).txq = s.txq := rfl
@[simp] theorem State.pushEcho_rxq (w : Word) : (s.pushEcho w).rxq = s.rxq := rfl
@[simp] theorem State.pushEcho_echoq (w : Word) : (s.pushEcho w).echoq = pushWord s.par.echoqDepth s.echoq w := rfl
@[simp] theorem State.pushEcho_rxHeld (w : Word) : (s.pushEcho w).rxHeld = s.rxHeld := rfl
@[simp] theorem State.pushEcho_lineOut (w : Word) : (s.pushEcho w).lineOut = s.lineOut := rfl
@[simp] theorem State.pushEcho_lineWords (w : Word) : (s.pushEcho w).lineWords = s.lineWords := rfl
@[simp] theorem State.pushEcho_now (w : Word) : (s.pushEcho w).now = s.now := rfl
@[simp] theorem State.pushEcho_par (w : Word) : (s.pushEcho w).par = s.par := rfl
@[simp] theorem State.pushEcho_agent (w : Word) : (s.pushEcho w).agent = s.agent := rfl
@[simp] theorem State.pushEcho_result (w : Word) : (s.pushEcho w).result = s.result := rfl
@[simp] theorem State.pushEcho_events (w : Word) : (s.pushEcho w).events = s.events := rfl
@[simp] theorem State.pushEcho_draws (w : Word) : (s.pushEcho w).draws = s.draws := rfl
@[simp] theorem State.pushEcho_between (w : Word) : (s.pushEcho w).between = s.between := rfl
@[simp] theorem State.pushEcho_tears (w : Word) : (s.pushEcho w).tears = s.tears := rfl
@[simp] theorem State.pushEcho_newTx (w : Word) : (s.pushEcho w).newTx = s.newTx := rfl
@[simp] theorem State.pushEcho_newRx (w : Word) : (s.pushEcho w).newRx = s.newRx := rfl
@[simp] theorem State.pushEcho_inProgress (w : Word) : (s.pushEcho w).inProgress = s.inProgress := rfl
@[simp] theorem State.pushEcho_port (w : Word) : (s.pushEcho w).port = s.port := rfl
@[simp] theorem State.pushEcho_sched (w : Word) : (s.pushEcho w).sched = s.sched := rfl

/-! ### requestStop -/

@[simp] theorem State.requestStop_tx : (s.requestStop).tx = s.tx := rfl
@[simp] theorem State.requestStop_rx : (s.requestStop).rx = s.rx := rfl
@[simp] theorem State.requestStop_txLock : (s.requestStop).txLock = s.txLock := rfl
@[simp] theorem State.requestStop_rxLock : (s.requestStop).rxLock = s.rxLock := rfl
@[simp] theorem State.requestStop_divLock : (s.requestStop).divLock = s.divLock := rfl
@[simp] theorem State.requestStop_mode : (s.requestStop).mode = s.mode := rfl
@[simp] theorem State.requestStop_stopReq : (s.requestStop).stopReq = true := rfl
@[simp] theorem State.requestStop_syncph : (s.requestStop).syncph = s.syncph := rfl
@[simp] theorem State.requestStop_st : (s.requestStop).st = s.st := rfl
@[simp] theorem State.requestStop_dv : (s.requestStop).dv = s.dv := rfl
@[simp] theorem State.requestStop_txq : (s.requestStop).txq = s.txq := rfl
@[simp] theorem State.requestStop_rxq : (s.requestStop).rxq = s.rxq := rfl
@[simp] theorem State.requestStop_echoq : (s.requestStop).echoq = s.echoq := rfl
@[simp] theorem State.requestStop_rxHeld : (s.requestStop).rxHeld = s.rxHeld := rfl
@[simp] theorem State.requestStop_lineOut : (s.requestStop).lineOut = s.lineOut := rfl
@[simp] theorem State.requestStop_lineWords : (s.requestStop).lineWords = s.lineWords := rfl
@[simp] theorem State.requestStop_now : (s.requestStop).now = s.now := rfl
@[simp] theorem State.requestStop_par : (s.requestStop).par = s.par := rfl
@[simp] theorem State.requestStop_agent : (s.requestStop).agent = s.agent := rfl
@[simp] theorem State.requestStop_result : (s.requestStop).result = s.result := rfl
@[simp] theorem State.requestStop_events : (s.requestStop).events = s.events := rfl
@[simp] theorem State.requestStop_draws : (s.requestStop).draws = s.draws := rfl
@[simp] theorem State.requestStop_between : (s.requestStop).between = s.between := rfl
@[simp] theorem State.requestStop_tears : (s.requestStop).tears = s.tears := rfl
@[simp] theorem State.requestStop_newTx : (s.requestStop).newTx = s.newTx := rfl
@[simp] theorem State.requestStop_newRx : (s.requestStop).newRx = s.newRx := rfl
@[simp] theorem State.requestStop_inProgress : (s.requestStop).inProgress = s.inProgress := rfl
@[simp] theorem State.requestStop_port : (s.requestStop).port = s.port := rfl
@[simp] theorem State.requestStop_sched : (s.requestStop).sched = s.sched := rfl

/-! ### finishStop -/

@[simp] theorem State.finishStop_tx : (s.finishStop).tx = s.tx := rfl
@[simp] theorem State.finishStop_rx : (s.finishStop).rx = s.rx := rfl
@[simp] theorem State.finishStop_txLock : (s.finishStop).txLock = s.txLock := rfl
@[simp] theorem State.finishStop_rxLock : (s.finishStop).rxLock = s.rxLock := rfl
@[simp] theorem State.finishStop_divLock : (s.finishStop).divLock = s.divLock := rfl
@[simp] theorem State.finishStop_mode : (s.finishStop).mode = .halted := rfl
@[simp] theorem State.finishStop_stopReq : (s.finishStop).stopReq = s.stopReq := rfl
@[simp] theorem State.finishStop_syncph : (s.finishStop).syncph = s.syncph := rfl
@[simp] theorem State.finishStop_st : (s.finishStop).st = s.st := rfl
@[simp] theorem State.finishStop_dv : (s.finishStop).dv = cancelDivider s.dv := rfl
@[simp] theorem State.finishStop_txq : (s.finishStop).txq = s.txq := rfl
@[simp] theorem State.finishStop_rxq : (s.finishStop).rxq = s.rxq := rfl
@[simp] theorem State.finishStop_echoq : (s.finishStop).echoq = s.echoq := rfl
@[simp] theorem State.finishStop_rxHeld : (s.finishStop).rxHeld = s.rxHeld := rfl
@[simp] theorem State.finishStop_lineOut : (s.finishStop).lineOut = .low := rfl
@[simp] theorem State.finishStop_lineWords : (s.finishStop).lineWords = s.lineWords := rfl
@[simp] theorem State.finishStop_now : (s.finishStop).now = s.now := rfl
@[simp] theorem State.finishStop_par : (s.finishStop).par = s.par := rfl
@[simp] theorem State.finishStop_agent : (s.finishStop).agent = s.agent := rfl
@[simp] theorem State.finishStop_result : (s.finishStop).result = s.result := rfl
@[simp] theorem State.finishStop_events : (s.finishStop).events = s.events := rfl
@[simp] theorem State.finishStop_draws : (s.finishStop).draws = s.draws := rfl
@[simp] theorem State.finishStop_between : (s.finishStop).between = s.between := rfl
@[simp] theorem State.finishStop_tears : (s.finishStop).tears = s.tears := rfl
@[simp] theorem State.finishStop_newTx : (s.finishStop).newTx = s.newTx := rfl
@[simp] theorem State.finishStop_newRx : (s.finishStop).newRx = s.newRx := rfl
@[simp] theorem State.finishStop_inProgress : (s.finishStop).inProgress = s.inProgress := rfl
@[simp] theorem State.finishStop_port : (s.finishStop).port = s.port := rfl
@[simp] theorem State.finishStop_sched : (s.finishStop).sched = s.sched := rfl

/-! ### enterUnderflow -/

@[simp] theorem State.enterUnderflow_tx : (s.enterUnderflow).tx = s.tx := rfl
@[simp] theorem State.enterUnderflow_rx : (s.enterUnderflow).rx = s.rx := rfl
@[simp] theorem State.enterUnderflow_txLock : (s.enterUnderflow).txLock = s.txLock := rfl
@[simp] theorem State.enterUnderflow_rxLock : (s.enterUnderflow).rxLock = s.rxLock := rfl
@[simp] theorem State.enterUnderflow_divLock : (s.enterUnderflow).divLock = s.divLock := rfl
@[simp] theorem State.enterUnderflow_mode : (s.enterUnderflow).mode = .halted := rfl
@[simp] theorem State.enterUnderflow_stopReq : (s.enterUnderflow).stopReq = true := rfl
@[simp] theorem State.enterUnderflow_syncph : (s.enterUnderflow).syncph = s.syncph := rfl
@[simp] theorem State.enterUnderflow_st : (s.enterUnderflow).st = s.st.underflowed := rfl
@[simp] theorem State.enterUnderflow_dv : (s.enterUnderflow).dv = s.dv := rfl
@[simp] theorem State.enterUnderflow_txq : (s.enterUnderflow).txq = s.txq := rfl
@[simp] theorem State.enterUnderflow_rxq : (s.enterUnderflow).rxq = s.rxq := rfl
@[simp] theorem State.enterUnderflow_echoq : (s.enterUnderflow).echoq = s.echoq := rfl
@[simp] theorem State.enterUnderflow_rxHeld : (s.enterUnderflow).rxHeld = s.rxHeld := rfl
@[simp] theorem State.enterUnderflow_lineOut : (s.enterUnderflow).lineOut = .low := rfl
@[simp] theorem State.enterUnderflow_lineWords : (s.enterUnderflow).lineWords = s.lineWords := rfl
@[simp] theorem State.enterUnderflow_now : (s.enterUnderflow).now = s.now := rfl
@[simp] theorem State.enterUnderflow_par : (s.enterUnderflow).par = s.par := rfl
@[simp] theorem State.enterUnderflow_agent : (s.enterUnderflow).agent = s.agent := rfl
@[simp] theorem State.enterUnderflow_result : (s.enterUnderflow).result = s.result := rfl
@[simp] theorem State.enterUnderflow_events : (s.enterUnderflow).events = s.events ++ [.underflow] := rfl
@[simp] theorem State.enterUnderflow_draws : (s.enterUnderflow).draws = s.draws := rfl
@[simp] theorem State.enterUnderflow_between : (s.enterUnderflow).between = s.between := rfl
@[simp] theorem State.enterUnderflow_tears : (s.enterUnderflow).tears = s.tears := rfl
@[simp] theorem State.enterUnderflow_newTx : (s.enterUnderflow).newTx = s.newTx := rfl
@[simp] theorem State.enterUnderflow_newRx : (s.enterUnderflow).newRx = s.newRx := rfl
@[simp] theorem State.enterUnderflow_inProgress : (s.enterUnderflow).inProgress = s.inProgress := rfl
@[simp] theorem State.enterUnderflow_port : (s.enterUnderflow).port = s.port := rfl
@[simp] theorem State.enterUnderflow_sched : (s.enterUnderflow).sched = s.sched := rfl

/-! ### openTurn -/

@[simp] theorem State.openTurn_tx (t : Turn) (q : List Turn) : (s.openTurn t q).tx = s.tx := rfl
@[simp] theorem State.openTurn_rx (t : Turn) (q : List Turn) : (s.openTurn t q).rx = s.rx := rfl
@[simp] theorem State.openTurn_txLock (t : Turn) (q : List Turn) : (s.openTurn t q).txLock = s.txLock := rfl
@[simp] theorem State.openTurn_rxLock (t : Turn) (q : List Turn) : (s.openTurn t q).rxLock = s.rxLock := rfl
@[simp] theorem State.openTurn_divLock (t : Turn) (q : List Turn) : (s.openTurn t q).divLock = s.divLock := rfl
@[simp] theorem State.openTurn_mode (t : Turn) (q : List Turn) : (s.openTurn t q).mode = s.mode := rfl
@[simp] theorem State.openTurn_stopReq (t : Turn) (q : List Turn) : (s.openTurn t q).stopReq = s.stopReq := rfl
@[simp] theorem State.openTurn_syncph (t : Turn) (q : List Turn) : (s.openTurn t q).syncph = s.syncph := rfl
@[simp] theorem State.openTurn_st (t : Turn) (q : List Turn) : (s.openTurn t q).st = s.st := rfl
@[simp] theorem State.openTurn_dv (t : Turn) (q : List Turn) : (s.openTurn t q).dv = s.dv := rfl
@[simp] theorem State.openTurn_txq (t : Turn) (q : List Turn) : (s.openTurn t q).txq = s.txq := rfl
@[simp] theorem State.openTurn_rxq (t : Turn) (q : List Turn) : (s.openTurn t q).rxq = s.rxq := rfl
@[simp] theorem State.openTurn_echoq (t : Turn) (q : List Turn) : (s.openTurn t q).echoq = s.echoq := rfl
@[simp] theorem State.openTurn_rxHeld (t : Turn) (q : List Turn) : (s.openTurn t q).rxHeld = s.rxHeld := rfl
@[simp] theorem State.openTurn_lineOut (t : Turn) (q : List Turn) : (s.openTurn t q).lineOut = s.lineOut := rfl
@[simp] theorem State.openTurn_lineWords (t : Turn) (q : List Turn) : (s.openTurn t q).lineWords = s.lineWords := rfl
@[simp] theorem State.openTurn_now (t : Turn) (q : List Turn) : (s.openTurn t q).now = s.now + t.elapsed := rfl
@[simp] theorem State.openTurn_par (t : Turn) (q : List Turn) : (s.openTurn t q).par = s.par := rfl
@[simp] theorem State.openTurn_agent (t : Turn) (q : List Turn) : (s.openTurn t q).agent = t.agent := rfl
@[simp] theorem State.openTurn_result (t : Turn) (q : List Turn) : (s.openTurn t q).result = s.result := rfl
@[simp] theorem State.openTurn_events (t : Turn) (q : List Turn) : (s.openTurn t q).events = s.events := rfl
@[simp] theorem State.openTurn_draws (t : Turn) (q : List Turn) : (s.openTurn t q).draws = s.draws := rfl
@[simp] theorem State.openTurn_between (t : Turn) (q : List Turn) : (s.openTurn t q).between = t.between := rfl
@[simp] theorem State.openTurn_tears (t : Turn) (q : List Turn) : (s.openTurn t q).tears = t.tears := rfl
@[simp] theorem State.openTurn_inProgress (t : Turn) (q : List Turn) : (s.openTurn t q).inProgress = s.inProgress := rfl
@[simp] theorem State.openTurn_port (t : Turn) (q : List Turn) : (s.openTurn t q).port = s.port := rfl
@[simp] theorem State.openTurn_sched (t : Turn) (q : List Turn) : (s.openTurn t q).sched = q := rfl

/-! ### setTc_tx -/

@[simp] theorem State.setTc_tx_tx (v : Timecode) : (s.setTc .tx v).tx = v := rfl
@[simp] theorem State.setTc_tx_rx (v : Timecode) : (s.setTc .tx v).rx = s.rx := rfl
@[simp] theorem State.setTc_tx_txLock (v : Timecode) : (s.setTc .tx v).txLock = s.txLock := rfl
@[simp] theorem State.setTc_tx_rxLock (v : Timecode) : (s.setTc .tx v).rxLock = s.rxLock := rfl
@[simp] theorem State.setTc_tx_divLock (v : Timecode) : (s.setTc .tx v).divLock = s.divLock := rfl
@[simp] theorem State.setTc_tx_mode (v : Timecode) : (s.setTc .tx v).mode = s.mode := rfl
@[simp] theorem State.setTc_tx_stopReq (v : Timecode) : (s.setTc .tx v).stopReq = s.stopReq := rfl
@[simp] theorem State.setTc_tx_syncph (v : Timecode) : (s.setTc .tx v).syncph = s.syncph := rfl
@[simp] theorem State.setTc_tx_st (v : Timecode) : (s.setTc .tx v).st = s.st := rfl
@[simp] theorem State.setTc_tx_dv (v : Timecode) : (s.setTc .tx v).dv = s.dv := rfl
@[simp] theorem State.setTc_tx_txq (v : Timecode) : (s.setTc .tx v).txq = s.txq := rfl
@[simp] theorem State.setTc_tx_rxq (v : Timecode) : (s.setTc .tx v).rxq = s.rxq := rfl
@[simp] theorem State.setTc_tx_echoq (v : Timecode) : (s.setTc .tx v).echoq = s.echoq := rfl
@[simp] theorem State.setTc_tx_rxHeld (v : Timecode) : (s.setTc .tx v).rxHeld = s.rxHeld := rfl
@[simp] theorem State.setTc_tx_lineOut (v : Timecode) : (s.setTc .tx v).lineOut = s.lineOut := rfl
@[simp] theorem State.setTc_tx_lineWords (v : Timecode) : (s.setTc .tx v).lineWords = s.lineWords := rfl
@[simp] theorem State.setTc_tx_now (v : Timecode) : (s.setTc .tx v).now = s.now := rfl
@[simp] theorem State.setTc_tx_par (v : Timecode) : (s.setTc .tx v).par = s.par := rfl
@[simp] theorem State.setTc_tx_agent (v : Timecode) : (s.setTc .tx v).agent = s.agent := rfl
@[simp] theorem State.setTc_tx_result (v : Timecode) : (s.setTc .tx v).result = s.result := rfl
@[simp] theorem State.setTc_tx_events (v : Timecode) : (s.setTc .tx v).events = s.events := rfl
@[simp] theorem State.setTc_tx_draws (v : Timecode) : (s.setTc .tx v).draws = s.draws := rfl
@[simp] theorem State.setTc_tx_between (v : Timecode) : (s.setTc .tx v).between = s.between := rfl
@[simp] theorem State.setTc_tx_tears (v : Timecode) : (s.setTc .tx v).tears = s.tears := rfl
@[simp] theorem State.setTc_tx_newTx (v : Timecode) : (s.setTc .tx v).newTx = s.newTx := rfl
@[simp] theorem State.setTc_tx_newRx (v : Timecode) : (s.setTc .tx v).newRx = s.newRx := rfl
@[simp] theorem State.setTc_tx_inProgress (v : Timecode) : (s.setTc .tx v).inProgress = s.inProgress := rfl
@[simp] theorem State.setTc_tx_port (v : Timecode) : (s.setTc .tx v).port = s.port := rfl
@[simp] theorem State.setTc_tx_sched (v : Timecode) : (s.setTc .tx v).sched = s.sched := rfl

/-! ### setTc_rx -/

@[simp] theorem State.setTc_rx_tx (v : Timecode) : (s.setTc .rx v).tx = s.tx := rfl
@[simp] theorem State.setTc_rx_rx (v : Timecode) : (s.setTc .rx v).rx = v := rfl
@[simp] theorem State.setTc_rx_txLock (v : Timecode) : (s.setTc .rx v).txLock = s.txLock := rfl
@[simp] theorem State.setTc_rx_rxLock (v : Timecode) : (s.setTc .rx v).rxLock = s.rxLock := rfl
@[simp] theorem State.setTc_rx_divLock (v : Timecode) : (s.setTc .rx v).divLock = s.divLock := rfl
@[simp] theorem State.setTc_rx_mode (v : Timecode) : (s.setTc .rx v).mode = s.mode := rfl
@[simp] theorem State.setTc_rx_stopReq (v : Timecode) : (s.setTc .rx v).stopReq = s.stopReq := rfl
@[simp] theorem State.setTc_rx_syncph (v : Timecode) : (s.setTc .rx v).syncph = s.syncph := rfl
@[simp] theorem State.setTc_rx_st (v : Timecode) : (s.setTc .rx v).st = s.st := rfl
@[simp] theorem State.setTc_rx_dv (v : Timecode) : (s.setTc .rx v).dv = s.dv := rfl
@[simp] theorem State.setTc_rx_txq (v : Timecode) : (s.setTc .rx v).txq = s.txq := rfl
@[simp] theorem State.setTc_rx_rxq (v : Timecode) : (s.setTc .rx v).rxq = s.rxq := rfl
@[simp] theorem State.setTc_rx_echoq (v : Timecode) : (s.setTc .rx v).echoq = s.echoq := rfl
@[simp] theorem State.setTc_rx_rxHeld (v : Timecode) : (s.setTc .rx v).rxHeld = s.rxHeld := rfl
@[simp] theorem State.setTc_rx_lineOut (v : Timecode) : (s.setTc .rx v).lineOut = s.lineOut := rfl
@[simp] theorem State.setTc_rx_lineWords (v : Timecode) : (s.setTc .rx v).lineWords = s.lineWords := rfl
@[simp] theorem State.setTc_rx_now (v : Timecode) : (s.setTc .rx v).now = s.now := rfl
@[simp] theorem State.setTc_rx_par (v : Timecode) : (s.setTc .rx v).par = s.par := rfl
@[simp] theorem State.setTc_rx_agent (v : Timecode) : (s.setTc .rx v).agent = s.agent := rfl
@[simp] theorem State.setTc_rx_result (v : Timecode) : (s.setTc .rx v).result = s.result := rfl
@[simp] theorem State.setTc_rx_events (v : Timecode) : (s.setTc .rx v).events = s.events := rfl
@[simp] theorem State.setTc_rx_draws (v : Timecode) : (s.setTc .rx v).draws = s.draws := rfl
@[simp] theorem State.setTc_rx_between (v : Timecode) : (s.setTc .rx v).between = s.between := rfl
@[simp] theorem State.setTc_rx_tears (v : Timecode) : (s.setTc .rx v).tears = s.tears := rfl
@[simp] theorem State.setTc_rx_newTx (v : Timecode) : (s.setTc .rx v).newTx = s.newTx := rfl
@[simp] theorem State.setTc_rx_newRx (v : Timecode) : (s.setTc .rx v).newRx = s.newRx := rfl
@[simp] theorem State.setTc_rx_inProgress (v : Timecode) : (s.setTc .rx v).inProgress = s.inProgress := rfl
@[simp] theorem State.setTc_rx_port (v : Timecode) : (s.setTc .rx v).port = s.port := rfl
@[simp] theorem State.setTc_rx_sched (v : Timecode) : (s.setTc .rx v).sched = s.sched := rfl

/-! ### setHolder_tx -/

@[simp] theorem State.setHolder_tx_tx (h : Option Agent) : (s.setHolder .tx h).tx = s.tx := rfl
@[simp] theorem State.setHolder_tx_rx (h : Option Agent) : (s.setHolder .tx h).rx = s.rx := rfl
@[simp] theorem State.setHolder_tx_txLock (h : Option Agent) : (s.setHolder .tx h).txLock = h := rfl
@[simp] theorem State.setHolder_tx_rxLock (h : Option Agent) : (s.setHolder .tx h).rxLock = s.rxLock := rfl
@[simp] theorem State.setHolder_tx_divLock (h : Option Agent) : (s.setHolder .tx h).divLock = s.divLock := rfl
@[simp] theorem State.setHolder_tx_mode (h : Option Agent) : (s.setHolder .tx h).mode = s.mode := rfl
@[simp] theorem State.setHolder_tx_stopReq (h : Option Agent) : (s.setHolder .tx h).stopReq = s.stopReq := rfl
@[simp] theorem State.setHolder_tx_syncph (h : Option Agent) : (s.setHolder .tx h).syncph = s.syncph := rfl
@[simp] theorem State.setHolder_tx_st (h : Option Agent) : (s.setHolder .tx h).st = s.st := rfl
@[simp] theorem State.setHolder_tx_dv (h : Option Agent) : (s.setHolder .tx h).dv = s.dv := rfl
@[simp] theorem State.setHolder_tx_txq (h : Option Agent) : (s.setHolder .tx h).txq = s.txq := rfl
@[simp] theorem State.setHolder_tx_rxq (h : Option Agent) : (s.setHolder .tx h).rxq = s.rxq := rfl
@[simp] theorem State.setHolder_tx_echoq (h : Option Agent) : (s.setHolder .tx h).echoq = s.echoq := rfl
@[simp] theorem State.setHolder_tx_rxHeld (h : Option Agent) : (s.setHolder .tx h).rxHeld = s.rxHeld := rfl
@[simp] theorem State.setHolder_tx_lineOut (h : Option Agent) : (s.setHolder .tx h).lineOut = s.lineOut := rfl
@[simp] theorem State.setHolder_tx_lineWords (h : Option Agent) : (s.setHolder .tx h).lineWords = s.lineWords := rfl
@[simp] theorem State.setHolder_tx_now (h : Option Agent) : (s.setHolder .tx h).now = s.now := rfl
@[simp] theorem State.setHolder_tx_par (h : Option Agent) : (s.setHolder .tx h).par = s.par := rfl
@[simp] theorem State.setHolder_tx_agent (h : Option Agent) : (s.setHolder .tx h).agent = s.agent := rfl
@[simp] theorem State.setHolder_tx_result (h : Option Agent) : (s.setHolder .tx h).result = s.result := rfl
@[simp] theorem State.setHolder_tx_events (h : Option Agent) : (s.setHolder .tx h).events = s.events := rfl
@[simp] theorem State.setHolder_tx_draws (h : Option Agent) : (s.setHolder .tx h).draws = s.draws := rfl
@[simp] theorem State.setHolder_tx_between (h : Option Agent) : (s.setHolder .tx h).between = s.between := rfl
@[simp] theorem State.setHolder_tx_tears (h : Option Agent) : (s.setHolder .tx h).tears = s.tears := rfl
@[simp] theorem State.setHolder_tx_newTx (h : Option Agent) : (s.setHolder .tx h).newTx = s.newTx := rfl
@[simp] theorem State.setHolder_tx_newRx (h : Option Agent) : (s.setHolder .tx h).newRx = s.newRx := rfl
@[simp] theorem State.setHolder_tx_inProgress (h : Option Agent) : (s.setHolder .tx h).inProgress = s.inProgress := rfl
@[simp] theorem State.setHolder_tx_port (h : Option Agent) : (s.setHolder .tx h).port = s.port := rfl
@[simp] theorem State.setHolder_tx_sched (h : Option Agent) : (s.setHolder .tx h).sched = s.sched := rfl

/-! ### setHolder_rx -/

@[simp] theorem State.setHolder_rx_tx (h : Option Agent) : (s.setHolder .rx h).tx = s.tx := rfl
@[simp] theorem State.setHolder_rx_rx (h : Option Agent) : (s.setHolder .rx h).rx = s.rx := rfl
@[simp] theorem State.setHolder_rx_txLock (h : Option Agent) : (s.setHolder .rx h).txLock = s.txLock := rfl
@[simp] theorem State.setHolder_rx_rxLock (h : Option Agent) : (s.setHolder .rx h).rxLock = h := rfl
@[simp] theorem State.setHolder_rx_divLock (h : Option Agent) : (s.setHolder .rx h).divLock = s.divLock := rfl
@[simp] theorem State.setHolder_rx_mode (h : Option Agent) : (s.setHolder .rx h).mode = s.mode := rfl
@[simp] theorem State.setHolder_rx_stopReq (h : Option Agent) : (s.setHolder .rx h).stopReq = s.stopReq := rfl
@[simp] theorem State.setHolder_rx_syncph (h : Option Agent) : (s.setHolder .rx h).syncph = s.syncph := rfl
@[simp] theorem State.setHolder_rx_st (h : Option Agent) : (s.setHolder .rx h).st = s.st := rfl
@[simp] theorem State.setHolder_rx_dv (h : Option Agent) : (s.setHolder .rx h).dv = s.dv := rfl
@[simp] theorem State.setHolder_rx_txq (h : Option Agent) : (s.setHolder .rx h).txq = s.txq := rfl
@[simp] theorem State.setHolder_rx_rxq (h : Option Agent) : (s.setHolder .rx h).rxq = s.rxq := rfl
@[simp] theorem State.setHolder_rx_echoq (h : Option Agent) : (s.setHolder .rx h).echoq = s.echoq := rfl
@[simp] theorem State.setHolder_rx_rxHeld (h : Option Agent) : (s.setHolder .rx h).rxHeld = s.rxHeld := rfl
@[simp] theorem State.setHolder_rx_lineOut (h : Option Agent) : (s.setHolder .rx h).lineOut = s.lineOut := rfl
@[simp] theorem State.setHolder_rx_lineWords (h : Option Agent) : (s.setHolder .rx h).lineWords = s.lineWords := rfl
@[simp] theorem State.setHolder_rx_now (h : Option Agent) : (s.setHolder .rx h).now = s.now := rfl
@[simp] theorem State.setHolder_rx_par (h : Option Agent) : (s.setHolder .rx h).par = s.par := rfl
@[simp] theorem State.setHolder_rx_agent (h : Option Agent) : (s.setHolder .rx h).agent = s.agent := rfl
@[simp] theorem State.setHolder_rx_result (h : Option Agent) : (s.setHolder .rx h).result = s.result := rfl
@[simp] theorem State.setHolder_rx_events (h : Option Agent) : (s.setHolder .rx h).events = s.events := rfl
@[simp] theorem State.setHolder_rx_draws (h : Option Agent) : (s.setHolder .rx h).draws = s.draws := rfl
@[simp] theorem State.setHolder_rx_between (h : Option Agent) : (s.setHolder .rx h).between = s.between := rfl
@[simp] theorem State.setHolder_rx_tears (h : Option Agent) : (s.setHolder .rx h).tears = s.tears := rfl
@[simp] theorem State.setHolder_rx_newTx (h : Option Agent) : (s.setHolder .rx h).newTx = s.newTx := rfl
@[simp] theorem State.setHolder_rx_newRx (h : Option Agent) : (s.setHolder .rx h).newRx = s.newRx := rfl
@[simp] theorem State.setHolder_rx_inProgress (h : Option Agent) : (s.setHolder .rx h).inProgress = s.inProgress := rfl
@[simp] theorem State.setHolder_rx_port (h : Option Agent) : (s.setHolder .rx h).port = s.port := rfl
@[simp] theorem State.setHolder_rx_sched (h : Option Agent) : (s.setHolder .rx h).sched = s.sched := rfl

/-! ### setHolder_div -/

@[simp] theorem State.setHolder_div_tx (h : Option Agent) : (s.setHolder .div h).tx = s.tx := rfl
@[simp] theorem State.setHolder_div_rx (h : Option Agent) : (s.setHolder .div h).rx = s.rx := rfl
@[simp] theorem State.setHolder_div_txLock (h : Option Agent) : (s.setHolder .div h).txLock = s.txLock := rfl
@[simp] theorem State.setHolder_div_rxLock (h : Option Agent) : (s.setHolder .div h).rxLock = s.rxLock := rfl
@[simp] theorem State.setHolder_div_divLock (h : Option Agent) : (s.setHolder .div h).divLock = h := rfl
@[simp] theorem State.setHolder_div_mode (h : Option Agent) : (s.setHolder .div h).mode = s.mode := rfl
@[simp] theorem State.setHolder_div_stopReq (h : Option Agent) : (s.setHolder .div h).stopReq = s.stopReq := rfl
@[simp] theorem State.setHolder_div_syncph (h : Option Agent) : (s.setHolder .div h).syncph = s.syncph := rfl
@[simp] theorem State.setHolder_div_st (h : Option Agent) : (s.setHolder .div h).st = s.st := rfl
@[simp] theorem State.setHolder_div_dv (h : Option Agent) : (s.setHolder .div h).dv = s.dv := rfl
@[simp] theorem State.setHolder_div_txq (h : Option Agent) : (s.setHolder .div h).txq = s.txq := rfl
@[simp] theorem State.setHolder_div_rxq (h : Option Agent) : (s.setHolder .div h).rxq = s.rxq := rfl
@[simp] theorem State.setHolder_div_echoq (h : Option Agent) : (s.setHolder .div h).echoq = s.echoq := rfl
@[simp] theorem State.setHolder_div_rxHeld (h : Option Agent) : (s.setHolder .div h).rxHeld = s.rxHeld := rfl
@[simp] theorem State.setHolder_div_lineOut (h : Option Agent) : (s.setHolder .div h).lineOut = s.lineOut := rfl
@[simp] theorem State.setHolder_div_lineWords (h : Option Agent) : (s.setHolder .div h).lineWords = s.lineWords := rfl
@[simp] theorem State.setHolder_div_now (h : Option Agent) : (s.setHolder .div h).now = s.now := rfl
@[simp] theorem State.setHolder_div_par (h : Option Agent) : (s.setHolder .div h).par = s.par := rfl
@[simp] theorem State.setHolder_div_agent (h : Option Agent) : (s.setHolder .div h).agent = s.agent := rfl
@[simp] theorem State.setHolder_div_result (h : Option Agent) : (s.setHolder .div h).result = s.result := rfl
@[simp] theorem State.setHolder_div_events (h : Option Agent) : (s.setHolder .div h).events = s.events := rfl
@[simp] theorem State.setHolder_div_draws (h : Option Agent) : (s.setHolder .div h).draws = s.draws := rfl
@[simp] theorem State.setHolder_div_between (h : Option Agent) : (s.setHolder .div h).between = s.between := rfl
@[simp] theorem State.setHolder_div_tears (h : Option Agent) : (s.setHolder .div h).tears = s.tears := rfl
@[simp] theorem State.setHolder_div_newTx (h : Option Agent) : (s.setHolder .div h).newTx = s.newTx := rfl
@[simp] theorem State.setHolder_div_newRx (h : Option Agent) : (s.setHolder .div h).newRx = s.newRx := rfl
@[simp] theorem State.setHolder_div_inProgress (h : Option Agent) : (s.setHolder .div h).inProgress = s.inProgress := rfl
@[simp] theorem State.setHolder_div_port (h : Option Agent) : (s.setHolder .div h).port = s.port := rfl
@[simp] theorem State.setHolder_div_sched (h : Option Agent) : (s.setHolder .div h).sched = s.sched := rfl

/-! ### setTc and setHolder with any operand -/

@[simp] theorem State.setTc_txLock (t : File) (v : Timecode) : (s.setTc t v).txLock = s.txLock := by cases t <;> rfl
@[simp] theorem State.setTc_rxLock (t : File) (v : Timecode) : (s.setTc t v).rxLock = s.rxLock := by cases t <;> rfl
@[simp] theorem State.setTc_divLock (t : File) (v : Timecode) : (s.setTc t v).divLock = s.divLock := by cases t <;> rfl
@[simp] theorem State.setTc_mode (t : File) (v : Timecode) : (s.setTc t v).mode = s.mode := by cases t <;> rfl
@[simp] theorem State.setTc_stopReq (t : File) (v : Timecode) : (s.setTc t v).stopReq = s.stopReq := by cases t <;> rfl
@[simp] theorem State.setTc_syncph (t : File) (v : Timecode) : (s.setTc t v).syncph = s.syncph := by cases t <;> rfl
@[simp] theorem State.setTc_st (t : File) (v : Timecode) : (s.setTc t v).st = s.st := by cases t <;> rfl
@[simp] theorem State.setTc_dv (t : File) (v : Timecode) : (s.setTc t v).dv = s.dv := by cases t <;> rfl
@[simp] theorem State.setTc_txq (t : File) (v : Timecode) : (s.setTc t v).txq = s.txq := by cases t <;> rfl
@[simp] theorem State.setTc_rxq (t : File) (v : Timecode) : (s.setTc t v).rxq = s.rxq := by cases t <;> rfl
@[simp] theorem State.setTc_echoq (t : File) (v : Timecode) : (s.setTc t v).echoq = s.echoq := by cases t <;> rfl
@[simp] theorem State.setTc_rxHeld (t : File) (v : Timecode) : (s.setTc t v).rxHeld = s.rxHeld := by cases t <;> rfl
@[simp] theorem State.setTc_lineOut (t : File) (v : Timecode) : (s.setTc t v).lineOut = s.lineOut := by cases t <;> rfl
@[simp] theorem State.setTc_lineWords (t : File) (v : Timecode) : (s.setTc t v).lineWords = s.lineWords := by cases t <;> rfl
@[simp] theorem State.setTc_now (t : File) (v : Timecode) : (s.setTc t v).now = s.now := by cases t <;> rfl
@[simp] theorem State.setTc_par (t : File) (v : Timecode) : (s.setTc t v).par = s.par := by cases t <;> rfl
@[simp] theorem State.setTc_agent (t : File) (v : Timecode) : (s.setTc t v).agent = s.agent := by cases t <;> rfl
@[simp] theorem State.setTc_result (t : File) (v : Timecode) : (s.setTc t v).result = s.result := by cases t <;> rfl
@[simp] theorem State.setTc_events (t : File) (v : Timecode) : (s.setTc t v).events = s.events := by cases t <;> rfl
@[simp] theorem State.setTc_draws (t : File) (v : Timecode) : (s.setTc t v).draws = s.draws := by cases t <;> rfl
@[simp] theorem State.setTc_between (t : File) (v : Timecode) : (s.setTc t v).between = s.between := by cases t <;> rfl
@[simp] theorem State.setTc_tears (t : File) (v : Timecode) : (s.setTc t v).tears = s.tears := by cases t <;> rfl
@[simp] theorem State.setTc_newTx (t : File) (v : Timecode) : (s.setTc t v).newTx = s.newTx := by cases t <;> rfl
@[simp] theorem State.setTc_newRx (t : File) (v : Timecode) : (s.setTc t v).newRx = s.newRx := by cases t <;> rfl
@[simp] theorem State.setTc_inProgress (t : File) (v : Timecode) : (s.setTc t v).inProgress = s.inProgress := by cases t <;> rfl
@[simp] theorem State.setTc_port (t : File) (v : Timecode) : (s.setTc t v).port = s.port := by cases t <;> rfl
@[simp] theorem State.setTc_sched (t : File) (v : Timecode) : (s.setTc t v).sched = s.sched := by cases t <;> rfl
@[simp] theorem State.setHolder_tx (l : Lock) (h : Option Agent) : (s.setHolder l h).tx = s.tx := by cases l <;> rfl
@[simp] theorem State.setHolder_rx (l : Lock) (h : Option Agent) : (s.setHolder l h).rx = s.rx := by cases l <;> rfl
@[simp] theorem State.setHolder_mode (l : Lock) (h : Option Agent) : (s.setHolder l h).mode = s.mode := by cases l <;> rfl
@[simp] theorem State.setHolder_stopReq (l : Lock) (h : Option Agent) : (s.setHolder l h).stopReq = s.stopReq := by cases l <;> rfl
@[simp] theorem State.setHolder_syncph (l : Lock) (h : Option Agent) : (s.setHolder l h).syncph = s.syncph := by cases l <;> rfl
@[simp] theorem State.setHolder_st (l : Lock) (h : Option Agent) : (s.setHolder l h).st = s.st := by cases l <;> rfl
@[simp] theorem State.setHolder_dv (l : Lock) (h : Option Agent) : (s.setHolder l h).dv = s.dv := by cases l <;> rfl
@[simp] theorem State.setHolder_txq (l : Lock) (h : Option Agent) : (s.setHolder l h).txq = s.txq := by cases l <;> rfl
@[simp] theorem State.setHolder_rxq (l : Lock) (h : Option Agent) : (s.setHolder l h).rxq = s.rxq := by cases l <;> rfl
@[simp] theorem State.setHolder_echoq (l : Lock) (h : Option Agent) : (s.setHolder l h).echoq = s.echoq := by cases l <;> rfl
@[simp] theorem State.setHolder_rxHeld (l : Lock) (h : Option Agent) : (s.setHolder l h).rxHeld = s.rxHeld := by cases l <;> rfl
@[simp] theorem State.setHolder_lineOut (l : Lock) (h : Option Agent) : (s.setHolder l h).lineOut = s.lineOut := by cases l <;> rfl
@[simp] theorem State.setHolder_lineWords (l : Lock) (h : Option Agent) : (s.setHolder l h).lineWords = s.lineWords := by cases l <;> rfl
@[simp] theorem State.setHolder_now (l : Lock) (h : Option Agent) : (s.setHolder l h).now = s.now := by cases l <;> rfl
@[simp] theorem State.setHolder_par (l : Lock) (h : Option Agent) : (s.setHolder l h).par = s.par := by cases l <;> rfl
@[simp] theorem State.setHolder_agent (l : Lock) (h : Option Agent) : (s.setHolder l h).agent = s.agent := by cases l <;> rfl
@[simp] theorem State.setHolder_result (l : Lock) (h : Option Agent) : (s.setHolder l h).result = s.result := by cases l <;> rfl
@[simp] theorem State.setHolder_events (l : Lock) (h : Option Agent) : (s.setHolder l h).events = s.events := by cases l <;> rfl
@[simp] theorem State.setHolder_draws (l : Lock) (h : Option Agent) : (s.setHolder l h).draws = s.draws := by cases l <;> rfl
@[simp] theorem State.setHolder_between (l : Lock) (h : Option Agent) : (s.setHolder l h).between = s.between := by cases l <;> rfl
@[simp] theorem State.setHolder_tears (l : Lock) (h : Option Agent) : (s.setHolder l h).tears = s.tears := by cases l <;> rfl
@[simp] theorem State.setHolder_newTx (l : Lock) (h : Option Agent) : (s.setHolder l h).newTx = s.newTx := by cases l <;> rfl
@[simp] theorem State.setHolder_newRx (l : Lock) (h : Option Agent) : (s.setHolder l h).newRx = s.newRx := by cases l <;> rfl
@[simp] theorem State.setHolder_inProgress (l : Lock) (h : Option Agent) : (s.setHolder l h).inProgress = s.inProgress := by cases l <;> rfl
@[simp] theorem State.setHolder_port (l : Lock) (h : Option Agent) : (s.setHolder l h).port = s.port := by cases l <;> rfl
@[simp] theorem State.setHolder_sched (l : Lock) (h : Option Agent) : (s.setHolder l h).sched = s.sched := by cases l <;> rfl

@[simp] theorem State.setTc_tc (t : File) (v : Timecode) : (s.setTc t v).tc t = v := by cases t <;> rfl

theorem State.setTc_tc_ne {t u : File} (h : u ≠ t) (v : Timecode) : (s.setTc t v).tc u = s.tc u := by
  cases t <;> cases u <;> first | rfl | exact absurd rfl h

@[simp] theorem State.setHolder_holder (l : Lock) (h : Option Agent) : (s.setHolder l h).holder l = h := by cases l <;> rfl

theorem State.setHolder_holder_ne {l m : Lock} (hne : m ≠ l) (h : Option Agent) : (s.setHolder l h).holder m = s.holder m := by
  cases l <;> cases m <;> first | rfl | exact absurd rfl hne

/-- With no operation in progress an unlocked read finds nothing but the present value. -/
theorem State.openTurn_newTx_of_none {t : Turn} (h : writerOf s t = none) (q : List Turn) :
    (s.openTurn t q).newTx = s.tx.rawFields := by simp [State.openTurn, afterWriter, h]

theorem State.openTurn_newRx_of_none {t : Turn} (h : writerOf s t = none) (q : List Turn) :
    (s.openTurn t q).newRx = s.rx.rawFields := by simp [State.openTurn, afterWriter, h]

@[simp] theorem State.opened_tc (t : File) : s.opened.tc t = s.tc t := by cases t <;> rfl

@[simp] theorem State.opened_holder (l : Lock) : s.opened.holder l = s.holder l := by cases l <;> rfl

@[simp] theorem State.opened_canLock (l : Lock) : s.opened.canLock l = s.canLock l := by cases l <;> rfl

end Sys2Proof.Machine
end

