-- ==== Sys2Proof/Laws/Ops.lean ====
section
/-! SUPPORT. What each shared operation can do, said once: the shape of an operation, locks, queues, LINE steps, the packet
pushes and the port. -/

namespace Sys2Proof.Machine

/-! ### The shape of an operation -/

/-- Everything `issue` can answer when it answers a next state. -/
theorem issue_next {i : Instr} {ready : Bool} {body : State → State} {s s' : State}
    (h : issue i ready body s = .next s') :
    permits i s = true ∧ (ready = true ∧ s' = body s.opened ∨ ready = false ∧ s' = s.heldUp) := by
  unfold issue at h
  cases hp : permits i s <;> cases ready <;> simp_all

theorem issue_ready {i : Instr} {body : State → State} {s : State} {ready : Bool} (hp : permits i s = true)
    (hr : ready = true) : issue i ready body s = .next (body s.opened) := by
  simp [issue, hp, hr]

theorem issue_held {i : Instr} {body : State → State} {s : State} {ready : Bool} (hp : permits i s = true)
    (hr : ready = false) : issue i ready body s = .next s.heldUp := by
  simp [issue, hp, hr]

theorem issue_refused {i : Instr} {ready : Bool} {body : State → State} {s : State} (hp : permits i s = false) :
    issue i ready body s = .refused (.notPermitted s.agent) := by
  simp [issue, hp]

/-! ### Locks -/

theorem canLock_of_free {s : State} {l : Lock} (h : s.holder l = none) : s.canLock l = true := by simp [State.canLock, h]

theorem canLock_false_of_other {s : State} {l : Lock} {a : Agent} (h : s.holder l = some a) (hne : a ≠ s.agent) :
    s.canLock l = false := by
  simp [State.canLock, h, hne]

/-! ### Queues -/

theorem pushWord_of_room {d : Nat} {q : List Word} (h : q.length < d) (w : Word) : pushWord d q w = q ++ [w] := by
  simp [pushWord, h]

theorem pushWord_of_full {d : Nat} {q : List Word} (h : ¬q.length < d) (w : Word) : pushWord d q w = q := by
  simp [pushWord, h]

/-- A push never takes a queue past its depth (20_memory.md R63). -/
theorem pushWord_length_le {d : Nat} {q : List Word} (h : q.length ≤ d) (w : Word) : (pushWord d q w).length ≤ d := by
  unfold pushWord
  split
  · simp only [List.length_append, List.length_singleton]; omega
  · exact h

theorem pushTx_txq_of_room {s : State} (h : s.txq.length < 8) (w : Word) : (s.pushTx w).txq = s.txq ++ [w] :=
  pushWord_of_room (d := Config.txqDepth) h w

/-! ### LINE steps -/

/-- A LINE step outside the line and the receive queue: it may take UNDERFLOW, and touches nothing else. -/
structure LineFrame (s s' : State) : Prop where
  tx : s'.tx = s.tx
  rx : s'.rx = s.rx
  txLock : s'.txLock = s.txLock
  rxLock : s'.rxLock = s.rxLock
  divLock : s'.divLock = s.divLock
  syncph : s'.syncph = s.syncph
  dv : s'.dv = s.dv
  echoq : s'.echoq = s.echoq
  now : s'.now = s.now
  par : s'.par = s.par
  agent : s'.agent = s.agent
  draws : s'.draws = s.draws
  between : s'.between = s.between
  tears : s'.tears = s.tears
  rxHeld : s'.rxHeld = s.rxHeld
  newTx : s'.newTx = s.newTx
  newRx : s'.newRx = s.newRx
  inProgress : s'.inProgress = s.inProgress
  port : s'.port = s.port
  sched : s'.sched = s.sched
  /-- nothing is lost or reordered on the way to the line -/
  stream : s'.lineWords ++ s'.txq = s.lineWords ++ s.txq
  shorter : s'.txq.length ≤ s.txq.length
  /-- RXQ grows at its tail, within its depth -/
  grows : ∃ pushed, s'.rxq = s.rxq ++ pushed
  fits : s.rxq.length ≤ s.par.rxqDepth → s'.rxq.length ≤ s.par.rxqDepth
  rxOk : s'.st.rxOk = s.st.rxOk
  rxPerr : s'.st.rxPerr = s.st.rxPerr
  rxSyncErr : s'.st.rxSyncErr = s.st.rxSyncErr
  safetyCount : s'.st.safetyCount = s.st.safetyCount
  recorded : ∀ e ∈ s.events, e ∈ s'.events
  /-- the engine goes on as it was, or UNDERFLOW was taken -/
  engine : (s'.mode = s.mode ∧ s'.stopReq = s.stopReq ∧ s'.lineOut = s.lineOut ∧ s'.st.underflow = s.st.underflow) ∨
    (running s.mode = true ∧ s'.mode = .halted ∧ s'.stopReq = true ∧ s'.lineOut = .low ∧ s'.st.underflow = true ∧
      Event.underflow ∈ s'.events)

theorem LineFrame.refl (s : State) : LineFrame s s := by
  constructor <;> first | rfl | simp

theorem LineFrame.trans {a b c : State} (h : LineFrame a b) (k : LineFrame b c) : LineFrame a c where
  tx := k.tx.trans h.tx
  rx := k.rx.trans h.rx
  txLock := k.txLock.trans h.txLock
  rxLock := k.rxLock.trans h.rxLock
  divLock := k.divLock.trans h.divLock
  syncph := k.syncph.trans h.syncph
  dv := k.dv.trans h.dv
  echoq := k.echoq.trans h.echoq
  now := k.now.trans h.now
  par := k.par.trans h.par
  agent := k.agent.trans h.agent
  draws := k.draws.trans h.draws
  between := k.between.trans h.between
  tears := k.tears.trans h.tears
  rxHeld := k.rxHeld.trans h.rxHeld
  newTx := k.newTx.trans h.newTx
  newRx := k.newRx.trans h.newRx
  inProgress := k.inProgress.trans h.inProgress
  port := k.port.trans h.port
  sched := k.sched.trans h.sched
  stream := k.stream.trans h.stream
  shorter := le_trans k.shorter h.shorter
  grows := by
    obtain ⟨p, hp⟩ := h.grows
    obtain ⟨q, hq⟩ := k.grows
    exact ⟨p ++ q, by rw [hq, hp, List.append_assoc]⟩
  fits := fun hf => by
    have := k.fits (by rw [h.par]; exact h.fits hf)
    rwa [h.par] at this
  rxOk := k.rxOk.trans h.rxOk
  rxPerr := k.rxPerr.trans h.rxPerr
  rxSyncErr := k.rxSyncErr.trans h.rxSyncErr
  safetyCount := k.safetyCount.trans h.safetyCount
  recorded := fun e he => k.recorded e (h.recorded e he)
  engine := by
    rcases h.engine with ⟨m, r, o, u⟩ | ⟨run, m, r, o, u, e⟩ <;> rcases k.engine with ⟨m', r', o', u'⟩ | ⟨run', m', r', o', u', e'⟩
    · exact .inl ⟨m'.trans m, r'.trans r, o'.trans o, u'.trans u⟩
    · exact .inr ⟨m ▸ run', m', r', o', u', e'⟩
    · exact .inr ⟨run, m'.trans m, r'.trans r, o'.trans o, u'.trans u, k.recorded _ e⟩
    · exact .inr ⟨run, m', r', o', u', e'⟩

theorem lineTxPop_frame {s : State} (hr : running s.mode = true) : LineFrame s s.lineTxPop := by
  unfold State.lineTxPop
  split
  · next w q hq => constructor <;> simp_all [State.answer]
  · next hq => constructor <;> simp_all [State.enterUnderflow, State.raise, Status.underflowed]

theorem lineRxPush_frame (s : State) (w : Word) : LineFrame s (s.lineRxPush w) := by
  unfold State.lineRxPush
  split
  · constructor <;> simp_all
  · constructor <;> simp_all [Status.overflowed]

theorem lineStep_frame (s : State) (x : LineStep) : LineFrame s (s.lineStep x) := by
  unfold State.lineStep
  split
  · next h =>
    cases x
    · exact lineTxPop_frame h
    · exact lineRxPush_frame s _
  · exact .refl s

/-- Everything the LINE steps of one interleaving point can do to the rest of the block. -/
theorem lineSteps_frame (xs : List LineStep) : ∀ s : State, LineFrame s (s.lineSteps xs) := by
  induction xs with
  | nil => exact fun s => .refl s
  | cons x xs ih => exact fun s => (lineStep_frame s x).trans (ih _)

/-- LINE steps leave a stopped engine alone: neither LINE source is enabled (60_exceptions.md R284). -/
theorem lineSteps_stopped {s : State} (h : running s.mode = false) : ∀ xs : List LineStep, s.lineSteps xs = s
  | [] => rfl
  | x :: xs => by
    have hx : s.lineStep x = s := by simp [State.lineStep, lineEnabled, h]
    rw [State.lineSteps, hx, lineSteps_stopped h xs]

/-- What the LINE steps between the two pops of RX_POLL can do: no more than LINE steps can, and they do not touch the
transmit side or the engine. -/
theorem lineRxSteps_frame : ∀ (xs : List LineStep) (s : State),
    LineFrame s (s.lineRxSteps xs) ∧ (s.lineRxSteps xs).mode = s.mode ∧ (s.lineRxSteps xs).stopReq = s.stopReq ∧
      (s.lineRxSteps xs).lineOut = s.lineOut ∧ (s.lineRxSteps xs).txq = s.txq ∧
      (s.lineRxSteps xs).lineWords = s.lineWords ∧ (s.lineRxSteps xs).st.underflow = s.st.underflow
  | [], s => ⟨.refl s, rfl, rfl, rfl, rfl, rfl, rfl⟩
  | .pop :: xs, s => lineRxSteps_frame xs s
  | .push w :: xs, s => by
    obtain ⟨f, m, r, o, q, l, u⟩ := lineRxSteps_frame xs (s.lineRxPush w)
    have hp : (s.lineRxPush w).mode = s.mode ∧ (s.lineRxPush w).stopReq = s.stopReq ∧ (s.lineRxPush w).lineOut = s.lineOut ∧
        (s.lineRxPush w).txq = s.txq ∧ (s.lineRxPush w).lineWords = s.lineWords ∧
        (s.lineRxPush w).st.underflow = s.st.underflow := by
      unfold State.lineRxPush
      split <;> exact ⟨rfl, rfl, rfl, rfl, rfl, rfl⟩
    exact ⟨(lineRxPush_frame s w).trans f, m.trans hp.1, r.trans hp.2.1, o.trans hp.2.2.1, q.trans hp.2.2.2.1,
      l.trans hp.2.2.2.2.1, u.trans hp.2.2.2.2.2⟩

/-! ### The packet pushes -/

theorem LineFrame.append {a b : State} (h : LineFrame a b) (ws : List Word) :
    LineFrame { a with txq := a.txq ++ ws } { b with txq := b.txq ++ ws } where
  __ := h
  stream := by
    show b.lineWords ++ (b.txq ++ ws) = a.lineWords ++ (a.txq ++ ws)
    rw [← List.append_assoc, h.stream, List.append_assoc]
  shorter := by simpa using h.shorter

/-- With no other agent between the pushes and room for all of them, the words of a packet stand at the tail of TXQ. -/
theorem pushPacket_alone : ∀ (ws : List Word) (s : State), s.txq.length + ws.length ≤ 8 →
    pushPacket ws [] s = { s with txq := s.txq ++ ws }
  | [], s, _ => by simp [pushPacket, State.lineSteps]
  | w :: ws, s, h => by
    simp only [List.length_cons] at h
    have h1 : s.pushTx w = { s with txq := s.txq ++ [w] } := by
      simp [State.pushTx, pushWord, Config.txqDepth, show s.txq.length < 8 by omega]
    have ih := pushPacket_alone ws (s.pushTx w) (by rw [h1]; simp; omega)
    simp only [pushPacket, List.headD_nil, State.lineSteps, if_true, List.tail_nil]
    rw [ih, h1]
    simp

/-- UNDERFLOW empties nothing but finds TXQ empty: LINE steps that take it leave TXQ empty. -/
theorem lineSteps_underflow : ∀ (xs : List LineStep) (s : State), (s.lineSteps xs).mode ≠ s.mode →
    (s.lineSteps xs).txq = []
  | [], _, h => absurd rfl h
  | x :: xs, s, h => by
    rw [State.lineSteps] at h ⊢
    by_cases hx : (s.lineStep x).mode = s.mode
    · exact lineSteps_underflow xs _ (by rwa [hx])
    · unfold State.lineStep at hx h ⊢
      split at hx
      · next hr =>
        cases x with
        | push w =>
          simp only [State.lineRxPush] at hx
          split at hx <;> exact absurd rfl hx
        | pop =>
          simp only [State.lineTxPop] at hx h ⊢
          split at hx
          · exact absurd rfl hx
          · next hq =>
            have hh : s.enterUnderflow.mode = .halted := rfl
            simp only [hr, if_true, hq] at h ⊢
            rw [lineSteps_stopped (by rw [hh]; rfl)]
            exact hq
      · exact absurd rfl hx

/-- What the pushes of a packet do, whatever LINE steps fall before, between and after them: the first `n` words are pushed,
and the rest is what LINE steps can do; all of them are pushed when the engine goes on, and when UNDERFLOW is taken TXQ is left
empty. -/
theorem pushPacket_frame : ∀ (ws : List Word) (ps : List (List LineStep)) (s : State), s.txq.length + ws.length ≤ 8 →
    ∃ n ≤ ws.length, LineFrame { s with txq := s.txq ++ ws.take n } (pushPacket ws ps s) ∧
      ((pushPacket ws ps s).mode = s.mode ∧ n = ws.length ∨
        (pushPacket ws ps s).mode ≠ s.mode ∧ (pushPacket ws ps s).txq = [])
  | [], ps, s, _ => by
    refine ⟨0, Nat.le_refl 0, by simpa [pushPacket] using lineSteps_frame _ s, ?_⟩
    by_cases hm : (s.lineSteps (ps.headD [])).mode = s.mode
    · exact .inl ⟨hm, rfl⟩
    · exact .inr ⟨hm, lineSteps_underflow _ _ hm⟩
  | w :: ws, ps, s, h => by
    simp only [List.length_cons] at h
    have f := lineSteps_frame (ps.headD []) s
    rw [pushPacket]
    by_cases hm : (s.lineSteps (ps.headD [])).mode = s.mode
    · simp only [hm, if_true]
      have hlen := f.shorter
      generalize s.lineSteps (ps.headD []) = s1 at *
      have h1 : s1.pushTx w = { s1 with txq := s1.txq ++ [w] } := by
        simp [State.pushTx, pushWord, Config.txqDepth, show s1.txq.length < 8 by omega]
      obtain ⟨n, hn, g, e⟩ := pushPacket_frame ws ps.tail (s1.pushTx w) (by rw [h1]; simp; omega)
      have k := f.append (w :: ws.take n)
      rw [h1] at g e ⊢
      simp only [List.append_assoc, List.singleton_append] at g
      refine ⟨n + 1, by simpa using hn, by simpa using k.trans g, ?_⟩
      simpa [hm] using e
    · simp only [hm, if_false]
      exact ⟨0, Nat.zero_le _, by simpa using f, .inr ⟨hm, lineSteps_underflow _ _ hm⟩⟩

/-! ### The port -/

/-- The first item of an agent at the ports is one of its own, and stood there. -/
theorem takeFirst_some {a : Agent} : ∀ {items rest : List Item} {it : Item}, takeFirst a items = some (it, rest) →
    it.agent = a ∧ it ∈ items ∧ rest.length + 1 = items.length
  | [], _, _, h => by simp [takeFirst] at h
  | x :: xs, rest, it, h => by
    unfold takeFirst at h
    split at h
    · next hx => cases h; exact ⟨hx, by simp, by simp⟩
    · split at h
      · next y r hy =>
        cases h
        obtain ⟨h1, h2, h3⟩ := takeFirst_some hy
        exact ⟨h1, List.mem_cons_of_mem _ h2, by simp [h3]⟩
      · cases h

end Sys2Proof.Machine
end

