-- ==== Sys2Proof/Laws/Encoding.lean ====
section
/-! SUPPORT. Bits and bytes: what each operand reader gives for the bytes of an operand, what each bit of a field is, and how
one bit changes a population count. -/

namespace Sys2Proof

/-! ### Operand bytes read back -/

/-- A natural is read back from its bytes when the bytes are wide enough for it. -/
theorem readNat_natBytes (k : Nat) : ∀ (n : Nat) (rest : List Byte), n < 256 ^ k →
    readNat k (natBytes k n ++ rest) = some (n, rest) := by
  induction k with
  | zero => intro n rest h; simp at h; subst h; rfl
  | succ k ih =>
    intro n rest h
    have h2 : n / 256 < 256 ^ k := by rw [Nat.pow_succ] at h; omega
    simp only [natBytes, readNat, List.cons_append, ih _ _ h2, BitVec.toNat_ofNat]
    rw [show n % 2 ^ 8 + 256 * (n / 256) = n by omega]

/-- What is read as a natural fits its bytes, and stood at the front. -/
theorem readNat_some (k : Nat) : ∀ {bs rest : List Byte} {n : Nat}, readNat k bs = some (n, rest) →
    n < 256 ^ k ∧ ∃ used, bs = used ++ rest := by
  induction k with
  | zero => intro bs rest n h; cases h; exact ⟨by decide, [], rfl⟩
  | succ k ih =>
    intro bs rest n h
    cases bs with
    | nil => cases h
    | cons b bs =>
      simp only [readNat] at h
      split at h
      · next m r hm =>
        cases h
        obtain ⟨hlt, used, hu⟩ := ih hm
        have := b.isLt
        exact ⟨by rw [Nat.pow_succ]; omega, b :: used, by simp [hu]⟩
      · cases h

theorem readBit_bitBytes (b : Bool) (rest : List Byte) : readBit (bitBytes b ++ rest) = some (b, rest) := by cases b <;> rfl

theorem readFile_fileBytes (t : File) (rest : List Byte) : readFile (fileBytes t ++ rest) = some (t, rest) := by
  cases t <;> rfl

theorem readLock_lockBytes (l : Lock) (rest : List Byte) : readLock (lockBytes l ++ rest) = some (l, rest) := by
  cases l <;> rfl

theorem readNibble_nibbleBytes (n : Nibble) (rest : List Byte) : readNibble (nibbleBytes n ++ rest) = some (n, rest) := by
  have h : n.toNat < 16 := n.isLt
  simp only [nibbleBytes, List.cons_append, List.nil_append, readNibble, BitVec.toNat_ofNat,
    Nat.mod_eq_of_lt (show n.toNat < 2 ^ 8 by omega)]
  simp [h]

theorem readRateCode_byte (r : BitVec 3) (rest : List Byte) :
    readRateCode (BitVec.ofNat 8 r.toNat :: rest) = some (r, rest) := by
  have h : r.toNat < 8 := r.isLt
  simp only [readRateCode, BitVec.toNat_ofNat, Nat.mod_eq_of_lt (show r.toNat < 2 ^ 8 by omega)]
  simp [h]

theorem readWord_wordBytes (w : Word) (rest : List Byte) : readWord (wordBytes w ++ rest) = some (w, rest) := by
  have := w.isLt
  simp only [readWord, wordBytes, readNat_natBytes 4 w.toNat rest (by omega), Option.bind_eq_bind, Option.bind_some,
    BitVec.ofNat_toNat, BitVec.setWidth_eq]

theorem readHalf_halfBytes (h : Half) (rest : List Byte) : readHalf (halfBytes h ++ rest) = some (h, rest) := by
  have := h.isLt
  simp only [readHalf, halfBytes, readNat_natBytes 2 h.toNat rest (by omega), Option.bind_eq_bind, Option.bind_some,
    BitVec.ofNat_toNat, BitVec.setWidth_eq]

theorem readInt_intBytes {p : Int} (h : p.natAbs < 2 ^ 64) (rest : List Byte) :
    readInt (intBytes p ++ rest) = some (p, rest) := by
  simp only [readInt, intBytes, List.append_assoc, readBit_bitBytes, Option.bind_eq_bind, Option.bind_some,
    readNat_natBytes 8 p.natAbs rest (by omega)]
  by_cases hp : p < 0
  · simp [hp, abs_of_neg hp]
  · simp [hp, abs_of_nonneg (not_lt.mp hp)]

theorem readOptInt_optIntBytes {p : Option Int} (h : ∀ x, p = some x → x.natAbs < 2 ^ 64) (rest : List Byte) :
    readOptInt (optIntBytes p ++ rest) = some (p, rest) := by
  cases p with
  | none => rfl
  | some x =>
    simp only [readOptInt, optIntBytes, List.append_assoc, readBit_bitBytes, Option.bind_eq_bind, Option.bind_some, if_true,
      readInt_intBytes (h x rfl)]

theorem readCal_calBytes {c : CalArg} (h : c.wf = true) (rest : List Byte) : readCal (calBytes c ++ rest) = some (c, rest) := by
  cases c with
  | finite c =>
    simp only [CalArg.wf, Bool.and_eq_true, decide_eq_true_eq] at h
    have hp := c.pos
    have e : c.den - 1 + 1 = c.den := by omega
    simp only [readCal, calBytes, List.append_assoc, List.cons_append, Option.bind_eq_bind, Option.bind_some,
      readInt_intBytes h.1, readNat_natBytes 8 (c.den - 1) rest (by omega), e, Rat.mkRat_self]
  | nan => rfl
  | posInf => rfl
  | negInf => rfl

theorem readMode_modeBytes {m : ModeArg} (h : m.wf = true) (rest : List Byte) : readMode (modeBytes m ++ rest) = some (m, rest) := by
  cases m with
  | halted => rfl
  | run => rfl
  | monitor => rfl
  | jamming n =>
    simp only [ModeArg.wf, decide_eq_true_eq] at h
    simp only [readMode, modeBytes, List.cons_append, Option.bind_eq_bind, Option.bind_some,
      readNat_natBytes 4 n rest (by omega)]
  | notAMode tag =>
    simp only [ModeArg.wf, decide_eq_true_eq] at h
    simp only [modeBytes, List.cons_append, List.nil_append, readMode]
    split <;> first | rfl | simp_all

theorem readString_stringBytes {s : List Byte} (h : s.length < 2 ^ 8) (rest : List Byte) :
    readString (stringBytes s ++ rest) = some (s, rest) := by
  simp only [stringBytes, List.cons_append, readString, BitVec.toNat_ofNat, Nat.mod_eq_of_lt h]
  simp

/-! ### Bits of words -/

theorem fieldAt_getLsbD {n : Nat} (v : BitVec n) (k i : Nat) :
    (fieldAt v k).getLsbD i = (decide (i < 32) && decide (k ≤ i) && v.getLsbD (i - k)) := by
  simp only [fieldAt, BitVec.getLsbD_shiftLeft, BitVec.getLsbD_setWidth]
  by_cases h1 : i < 32 <;> by_cases h2 : i < k <;> simp [h1, h2, Nat.not_le.mpr, Nat.le_of_not_lt]
  intro; omega

theorem bitAt_getLsbD (b : Bool) (k i : Nat) : (bitAt b k).getLsbD i = (decide (i < 32) && decide (i = k) && b) := by
  simp only [bitAt, fieldAt_getLsbD, BitVec.getLsbD_ofBool]
  by_cases h1 : i < 32 <;> by_cases h2 : i = k <;> simp [h1, h2]
  omega

/-- Two halves joined, as the shifts of 20_memory.md R68 join them. -/
theorem wordOfHalves_eq_or (lo hi : Half) : wordOfHalves lo hi = lo.setWidth 32 ||| hi.setWidth 32 <<< 16 := by
  apply BitVec.eq_of_getLsbD_eq
  intro i h
  simp only [wordOfHalves, BitVec.getLsbD_append, BitVec.getLsbD_or, BitVec.getLsbD_setWidth, BitVec.getLsbD_shiftLeft]
  by_cases h2 : i < 16 <;> simp [h2, show i < 32 from h]
  rw [BitVec.getLsbD_of_ge lo i (by omega)]
  simp
  intro; omega

theorem wordOfHalves_split (w : Word) : wordOfHalves (lowHalf w) (highHalf w) = w := by
  apply BitVec.eq_of_getLsbD_eq
  intro i h
  simp only [wordOfHalves, lowHalf, highHalf, BitVec.getLsbD_append, BitVec.getLsbD_extractLsb']
  by_cases h2 : i < 16
  · simp [h2]
  · simp [h2, show i - 16 < 16 by omega, show 16 + (i - 16) = i by omega]

@[simp] theorem lowHalf_wordOfHalves (lo hi : Half) : lowHalf (wordOfHalves lo hi) = lo := by
  apply BitVec.eq_of_getLsbD_eq
  intro i h
  simp only [wordOfHalves, lowHalf, BitVec.getLsbD_append, BitVec.getLsbD_extractLsb']
  simp [h]

@[simp] theorem highHalf_wordOfHalves (lo hi : Half) : highHalf (wordOfHalves lo hi) = hi := by
  apply BitVec.eq_of_getLsbD_eq
  intro i h
  simp only [wordOfHalves, highHalf, BitVec.getLsbD_append, BitVec.getLsbD_extractLsb']
  simp [h]

end Sys2Proof

namespace Sys2Proof.Machine

/-! ### Population counts and parity -/

/-- Changing one bit of a word changes its population count by that bit. -/
theorem popcount_update {w v : Word} {k : Nat} (hk : k < 32) (hv : ∀ i < 32, i ≠ k → v.getLsbD i = w.getLsbD i) :
    popcount v + (w.getLsbD k).toNat = popcount w + (v.getLsbD k).toNat := by
  have key : ∀ n, (∀ i < n, i ≠ k → v.getLsbD i = w.getLsbD i) →
      ((List.range n).map fun i => (v.getLsbD i).toNat).sum + (if k < n then (w.getLsbD k).toNat else 0) =
      ((List.range n).map fun i => (w.getLsbD i).toNat).sum + (if k < n then (v.getLsbD k).toNat else 0) := by
    intro n
    induction n with
    | zero => simp
    | succ n ih =>
      intro h
      have ih := ih (fun i hi => h i (by omega))
      simp only [List.range_succ, List.map_append, List.sum_append, List.map_cons, List.map_nil, List.sum_cons, List.sum_nil]
      by_cases hkn : k = n
      · subst hkn; simp at ih ⊢; omega
      · rw [h n (by omega) (by omega)]
        by_cases hlt : k < n
        · simp [hlt, show k < n + 1 by omega] at ih ⊢; omega
        · simp [hlt, show ¬ k < n + 1 by omega] at ih ⊢; omega
  simpa [hk, popcount] using key 32 hv

/-- Setting a clear bit adds one to the population count. -/
theorem popcount_setBit {w : Word} {k : Nat} (hk : k < 32) (h : w.getLsbD k = false) :
    popcount (w ||| bitAt true k) = popcount w + 1 := by
  have := popcount_update (w := w) (v := w ||| bitAt true k) hk fun i _ hne => by simp [BitVec.getLsbD_or, bitAt_getLsbD, hne]
  simp only [BitVec.getLsbD_or, bitAt_getLsbD, h, hk] at this
  simpa using this

/-- The line sends as many ones as the word holds. -/
theorem lineBits_count (w : Word) : (lineBits w).count true = popcount w := by
  unfold lineBits popcount
  induction (List.range 32) with
  | nil => rfl
  | cons a l ih => simp only [List.map_cons, List.count_cons, ih, List.sum_cons]; cases w.getLsbD a <;> simp; omega

/-- The parity position is clear before the parity bit is set: bit 27 of W0 outside the 25 fps family. -/
theorem encData_parity_clear0 {p : Params} {S : Timecode} (h : fam25 p S.fps = false) :
    (encData p S).1.getLsbD 27 = false := by
  simp only [encData, LtcW0.word, encFields0, BitVec.getLsbD_or, fieldAt_getLsbD, bitAt_getLsbD, h]
  simp

/-- The parity position is clear before the parity bit is set: bit 27 of W1 in the 25 fps family. -/
theorem encData_parity_clear1 {p : Params} {S : Timecode} (h : fam25 p S.fps = true) :
    (encData p S).2.getLsbD 27 = false := by
  simp only [encData, LtcW1.word, encFields1, BitVec.getLsbD_or, fieldAt_getLsbD, bitAt_getLsbD, h]
  simp

/-- The parity bit changes no bit of W0 but bit 27, and that only outside the 25 fps family. -/
theorem encParity_bits0 (p : Params) (S : Timecode) {i : Nat} (h : i ≠ 27 ∨ fam25 p S.fps = true) :
    (encParity p S).1.getLsbD i = (encData p S).1.getLsbD i := by
  unfold encParity
  simp only []
  split
  · rfl
  · split
    · rfl
    · next hf =>
      rcases h with h | h
      · simp [BitVec.getLsbD_or, bitAt_getLsbD, h]
      · exact absurd h hf

/-- The parity bit changes no bit of W1 but bit 27, and that only in the 25 fps family. -/
theorem encParity_bits1 (p : Params) (S : Timecode) {i : Nat} (h : i ≠ 27 ∨ fam25 p S.fps = false) :
    (encParity p S).2.getLsbD i = (encData p S).2.getLsbD i := by
  unfold encParity
  simp only []
  split
  · rfl
  · split
    · next hf =>
      rcases h with h | h
      · simp [BitVec.getLsbD_or, bitAt_getLsbD, h]
      · simp [h] at hf
    · rfl

end Sys2Proof.Machine
end

