-- ==== Sys2Proof/Laws/Exec.lean ====
section
/-! SUPPORT. Each operation as one use of the shared shape: its guard and its body. Later proofs cite these equations and
`issue_ready`, `issue_held`, `issue_next`, and unfold no meaning. -/

namespace Sys2Proof.Machine

variable (s : State)

/-! ### Timecode value operations -/

theorem exec_setFpsDf (t : File) (fps : BitVec 3) (df : Bool) : exec (.setFpsDf t fps df) s =
    issue (.setFpsDf t fps df) (s.canLock (fileLock t)) (fun s => s.setFpsDf t fps df) s := rfl
theorem exec_loadTc (t : File) (hh mm ss ff : Nat) : exec (.loadTc t hh mm ss ff) s =
    issue (.loadTc t hh mm ss ff) (s.canLock (fileLock t)) (fun s => s.loadTime t ⟨hh, mm, ss, ff⟩) s := rfl
theorem exec_nextFrame (t : File) : exec (.nextFrame t) s =
    issue (.nextFrame t) (s.canLock (fileLock t)) (fun s => s.setTc t (s.tc t).next) s := rfl
theorem exec_prevFrame (t : File) : exec (.prevFrame t) s =
    issue (.prevFrame t) (s.canLock (fileLock t)) (fun s => s.setTc t (s.tc t).prev) s := rfl
theorem exec_toRaw (t : File) : exec (.toRaw t) s =
    issue (.toRaw t) (s.canLock (fileLock t)) (fun s => s.answer (.word (s.tc t).raw)) s := rfl
theorem exec_toAscii (t : File) : exec (.toAscii t) s =
    issue (.toAscii t) (s.canLock (fileLock t)) (fun s => s.answer (.chars (s.tc t).ascii)) s := rfl
theorem exec_fromAscii (t : File) (str : List Byte) : exec (.fromAscii t str) s =
    issue (.fromAscii t str) (s.canLock (fileLock t)) (fun s => s.fromAscii t str) s := rfl
theorem exec_setUb (t : File) (n1 n2 n3 n4 n5 n6 n7 n8 : Nibble) : exec (.setUb t n1 n2 n3 n4 n5 n6 n7 n8) s =
    issue (.setUb t n1 n2 n3 n4 n5 n6 n7 n8) (s.canLock (fileLock t))
      (fun s => s.setTc t ((s.tc t).setUserBits n1 n2 n3 n4 n5 n6 n7 n8)) s := rfl
theorem exec_setFlags (t : File) (cf clk bgf0 bgf2 : Bool) : exec (.setFlags t cf clk bgf0 bgf2) s =
    issue (.setFlags t cf clk bgf0 bgf2) (s.canLock (fileLock t))
      (fun s => s.setTc t ((s.tc t).setFlags cf clk bgf0 bgf2)) s := rfl
theorem exec_readRawStable (t : File) : exec (.readRawStable t) s =
    issue (.readRawStable t) true
      (fun s => s.answer (.word (stableRead (s.tc t).rawFields (s.newRaw t) s.tears))) s := rfl

/-- What a counted step can do: nothing for a count of 0, all of it at once, or hold (30_encoding.md R114). -/
theorem underOneHold_next {s s' : State} {i : Instr} {t : File} {n : Nat} {stepped : Timecode}
    (h : underOneHold i t n stepped s = .next s') :
    n = 0 ∧ s' = s.opened ∨ n ≠ 0 ∧ permits i s = true ∧
      (s.canLock (fileLock t) = true ∧ s' = s.opened.setTc t stepped ∨ s.canLock (fileLock t) = false ∧ s' = s.heldUp) := by
  unfold underOneHold at h
  split at h
  · next hn => cases h; exact .inl ⟨hn, rfl⟩
  · next hn => exact .inr ⟨hn, issue_next h⟩

/-! ### The encoder and the line encoder -/

theorem exec_encPacket (b : Bool) : exec (.encPacket b) s =
    issue (.encPacket b) (s.canLock .tx) (fun s => s.answer (.words (encPacketOf s.par s.tx b))) s := rfl
theorem exec_txFrame : exec .txFrame s = issue .txFrame (txFrameReady s) State.txFrame s := rfl
theorem exec_lineTxPop : exec .lineTxPop s = issue .lineTxPop (lineEnabled s) State.lineTxPop s := rfl

/-! ### The decoder and the line decoder -/

theorem exec_decPacket (w0 w1 : Word) : exec (.decPacket w0 w1) s =
    issue (.decPacket w0 w1) (s.canLock .rx) (fun s => s.decPacket w0 w1) s := rfl
theorem exec_decPacket3 (x0 x1 x2 : Word) : exec (.decPacket3 x0 x1 x2) s =
    issue (.decPacket3 x0 x1 x2) (s.canLock .rx) (fun s => s.decPacket3 x0 x1 x2) s := rfl
theorem exec_decFrame80 (w0 w1 : Word) (s16 : Half) : exec (.decFrame80 w0 w1 s16) s =
    issue (.decFrame80 w0 w1 s16) (s.canLock .rx) (fun s => s.decFrame80 w0 w1 s16) s := rfl
theorem exec_rxPoll : exec .rxPoll s = issue .rxPoll (rxPollReady s) State.rxPoll s := rfl
theorem exec_lineRxPush (w : Word) : exec (.lineRxPush w) s =
    issue (.lineRxPush w) (lineEnabled s) (fun s => s.lineRxPush w) s := rfl

/-! ### The clock adjuster -/

theorem exec_microAdjust (c : CalArg) (p : Option Int) : exec (.microAdjust c p) s =
    issue (.microAdjust c p) (microAdjustReady c (p.getD s.dv.period) s)
      (fun s => s.microAdjust c (p.getD s.dv.period)) s := rfl
theorem exec_mainFire : exec .mainFire s =
    issue .mainFire (timerDue s.dv.tMain s.now && s.canLock .div) State.mainFire s := rfl
theorem exec_safeFire : exec .safeFire s =
    issue .safeFire (timerDue s.dv.tSafe s.now && s.canLock .div) State.safeFire s := rfl
theorem exec_cancelDither : exec .cancelDither s =
    issue .cancelDither (s.canLock .div) (fun s => s.setDv (cancelDivider s.dv)) s := rfl
theorem exec_loadCal (c : CalArg) (p : Option Int) : exec (.loadCal c p) s =
    issue (.loadCal c p) (loadCalReady c (p.getD s.dv.period) s) (fun s => s.loadCal c (p.getD s.dv.period)) s := rfl

/-! ### Engine control -/

theorem exec_start (m : ModeArg) : exec (.start m) s = issue (.start m) (startReady m s) (fun s => s.start m) s := rfl
theorem exec_stop : exec .stop s = issue .stop true State.requestStop s := rfl
theorem exec_setMode (m : ModeArg) : exec (.setMode m) s = issue (.setMode m) true (fun s => s.setModeTo m) s := rfl
theorem exec_acquire_free {s : State} {l : Lock} (h : s.holder l ≠ some s.agent) : exec (.acquire l) s =
    issue (.acquire l) (s.holder l == none) (fun s => s.setHolder l (some s.agent)) s := by
  simp [exec, execAcquire, h]
theorem exec_release_held {s : State} {l : Lock} (h : s.holder l = some s.agent) : exec (.release l) s =
    issue (.release l) true (fun s => s.setHolder l none) s := by
  simp [exec, execRelease, h]
theorem exec_jamLoad (k : Nat) : exec (.jamLoad k) s =
    issue (.jamLoad k) (s.canLock .rx && s.canLock .tx) (fun s => s.jamLoad k) s := rfl

/-- Everything ACQUIRE can do when it answers a next state: it takes a free lock, or is held by another agent's. -/
theorem exec_acquire_next {s s' : State} {l : Lock} (h : exec (.acquire l) s = .next s') :
    permits (.acquire l) s = true ∧
      (s.holder l = none ∧ s' = s.opened.setHolder l (some s.agent) ∨ s.holder l ≠ none ∧ s' = s.heldUp) := by
  by_cases hh : s.holder l = some s.agent
  · cases hp : permits (.acquire l) s <;> simp [exec, execAcquire, issue, hh, hp] at h
  · rw [exec_acquire_free hh] at h
    obtain ⟨hp, ⟨hr, hb⟩ | ⟨hr, hb⟩⟩ := issue_next h
    · exact ⟨hp, .inl ⟨by simpa using hr, hb⟩⟩
    · exact ⟨hp, .inr ⟨fun hn => by simp [hn] at hr, hb⟩⟩

/-- Everything RELEASE can do when it answers a next state: its issuer held the lock, which is free now. -/
theorem exec_release_next {s s' : State} {l : Lock} (h : exec (.release l) s = .next s') :
    permits (.release l) s = true ∧ s.holder l = some s.agent ∧ s' = s.opened.setHolder l none := by
  by_cases hh : s.holder l = some s.agent
  · rw [exec_release_held hh] at h
    obtain ⟨hp, ⟨-, hb⟩ | ⟨hr, -⟩⟩ := issue_next h
    · exact ⟨hp, hh, hb⟩
    · cases hr
  · cases hp : permits (.release l) s <;> simp [exec, execRelease, issue, hh, hp] at h

/-! ### Bodies -/

/-- Everything DEC_PACKET does (42_ltc_decoder.md R194). -/
theorem decPacket_eq (w0 w1 : Word) : s.decPacket w0 w1 = { s with
    rx := if frameOk w0 w1 s.rx.fps then decCommit s.par w0 w1 s.rx else s.rx
    st := s.st.decoded (frameOk w0 w1 s.rx.fps) (!parityOk w0 w1)
    events := s.events ++ (if parityOk w0 w1 then [] else [.parityErr]) ++
      (if frameOk w0 w1 s.rx.fps then [] else [.decodeReject])
    result := .bool (frameOk w0 w1 s.rx.fps) } := by
  unfold State.decPacket State.reportParity
  cases frameOk w0 w1 s.rx.fps <;> cases parityOk w0 w1 <;> simp [State.raise, State.answer, State.setSt, State.setTc]

/-- Everything MICRO_ADJUST does (43_clock_adjust.md R215, R216). -/
theorem microAdjust_cases (c : CalArg) (P : Int) :
    (acceptCal s.par c P = none ∧ s.microAdjust c P = s.raise .calRange) ∨
    (∃ x q, acceptCal s.par c P = some (x, q) ∧
      (running s.mode = true ∧ s.microAdjust c P = s.setDv (adjustDivider s.par s.now x q s.dv) ∨
        running s.mode = false ∧ s.microAdjust c P = s.setDv (cancelDivider s.dv))) := by
  unfold State.microAdjust
  cases ha : acceptCal s.par c P with
  | none => exact .inl ⟨rfl, rfl⟩
  | some a =>
    refine .inr ⟨a.1, a.2, rfl, ?_⟩
    cases hr : running s.mode <;> simp

/-- Everything RX_POLL does once it can take its next sub-step (42_ltc_decoder.md R197): nothing with fewer than two words;
else the decode of two words, waiting or just popped, or their wait for RX.lock. -/
theorem rxPoll_cases :
    (∃ w0 w1, s.rxHeld = some (w0, w1) ∧
      s.rxPoll = (({ s with rxHeld := none } : State).decPacket w0 w1).answer .none) ∨
    (s.rxHeld = none ∧ s.rxq.length < 2 ∧ s.rxPoll = s) ∨
    (s.rxHeld = none ∧ ∃ w0 w1 q s1 pushed, s.rxq = w0 :: w1 :: q ∧ LineFrame { s with rxq := w1 :: q } s1 ∧
      s1.mode = s.mode ∧ s1.stopReq = s.stopReq ∧ s1.lineOut = s.lineOut ∧ s1.txq = s.txq ∧ s1.lineWords = s.lineWords ∧
      s1.st.underflow = s.st.underflow ∧ (s.between = [] → s1 = { s with rxq := w1 :: q }) ∧ s1.rxq.tail = q ++ pushed ∧
      (s.canLock .rx = true ∧ s.rxPoll = (({ s1 with rxq := q ++ pushed } : State).decPacket w0 w1).answer .none ∨
        s.canLock .rx = false ∧
          s.rxPoll = ({ s1 with rxq := q ++ pushed, rxHeld := some (w0, w1) } : State).answer .held)) := by
  obtain hh | ⟨⟨w0, w1⟩, hh⟩ := Option.eq_none_or_eq_some s.rxHeld
  · rcases hq : s.rxq with - | ⟨w0, - | ⟨w1, q⟩⟩
    · exact .inr (.inl ⟨hh, by simp, by simp only [State.rxPoll, hh, hq]⟩)
    · exact .inr (.inl ⟨hh, by simp, by simp only [State.rxPoll, hh, hq]⟩)
    · refine .inr (.inr ⟨hh, w0, w1, q, ?_⟩)
      have e : s.rxPoll =
          (let s1 := ({ s with rxq := w1 :: q } : State).lineRxSteps (s.between.headD [])
           let s2 : State := { s1 with rxq := s1.rxq.tail }
           if s2.canLock .rx then (s2.decPacket w0 w1).answer .none
           else ({ s2 with rxHeld := some (w0, w1) } : State).answer .held) := by simp only [State.rxPoll, hh, hq]
      have hb : s.between = [] → ({ s with rxq := w1 :: q } : State).lineRxSteps (s.between.headD []) =
          { s with rxq := w1 :: q } := fun h => by simp [h, State.lineRxSteps]
      obtain ⟨f, m, r, o, x, l, u⟩ := lineRxSteps_frame (s.between.headD []) ({ s with rxq := w1 :: q } : State)
      generalize ({ s with rxq := w1 :: q } : State).lineRxSteps (s.between.headD []) = s1 at *
      obtain ⟨pushed, hp⟩ := f.grows
      have ht : s1.rxq.tail = q ++ pushed := by rw [hp]; rfl
      have hc : ({ s1 with rxq := q ++ pushed } : State).canLock .rx = s.canLock .rx := by
        show (s1.rxLock == none || s1.rxLock == some s1.agent) = _
        rw [f.rxLock, f.agent]; rfl
      refine ⟨s1, pushed, rfl, f, m, r, o, x, l, u, hb, ht, ?_⟩
      simp only [ht, hc] at e
      cases hl : s.canLock .rx <;> rw [hl] at e
      · exact .inr ⟨rfl, e⟩
      · exact .inl ⟨rfl, e⟩
  · exact .inl ⟨w0, w1, hh, by simp only [State.rxPoll, hh]⟩

end Sys2Proof.Machine
end

