-- ==== Sys2Proof/Laws/Timecode.lean ====
section
/-! SUPPORT. Stepping a time: what the carry and borrow chains do, that a register file holds what they give, and that they
keep a legal time legal (40_timecode_ops.md R134, R135, R143, R145). -/

namespace Sys2Proof.Machine

theorem framesPerSecond_cases (r : Rate) : framesPerSecond r = 24 ∨ framesPerSecond r = 25 ∨ framesPerSecond r = 30 := by
  cases r <;> decide

theorem framesPerSecond_bounds (r : Rate) : 24 ≤ framesPerSecond r ∧ framesPerSecond r ≤ 30 := by
  cases r <;> decide

/-! ### What a register file can hold -/

/-- A time that the fields of a register file are wide enough for (10_state.md R21). -/
def Time.Fits (t : Time) : Prop := t.hh < 64 ∧ t.mm < 128 ∧ t.ss < 128 ∧ t.ff < 32

theorem Timecode.time_fits (T : Timecode) : T.time.Fits := ⟨T.hh.isLt, T.mm.isLt, T.ss.isLt, T.ff.isLt⟩

theorem Time.Legal.fits {n : Nat} {t : Time} (hn : n ≤ 30) (h : t.Legal n) : t.Fits := by
  obtain ⟨h1, h2, h3, h4⟩ := h
  exact ⟨by omega, by omega, by omega, by omega⟩

theorem Timecode.time_setTime {t : Time} (h : t.Fits) (T : Timecode) : (T.setTime t).time = t := by
  obtain ⟨h1, h2, h3, h4⟩ := h
  cases t
  simp only [Timecode.setTime, Timecode.time, BitVec.toNat_ofNat, Time.mk.injEq] at *
  exact ⟨Nat.mod_eq_of_lt h1, Nat.mod_eq_of_lt h2, Nat.mod_eq_of_lt h3, Nat.mod_eq_of_lt h4⟩

@[simp] theorem Timecode.setTime_time (T : Timecode) : T.setTime T.time = T := by
  cases T; simp [Timecode.setTime, Timecode.time]

@[simp] theorem Timecode.setTime_setTime (T : Timecode) (t u : Time) : (T.setTime t).setTime u = T.setTime u := rfl
@[simp] theorem Timecode.setTime_fps (T : Timecode) (t : Time) : (T.setTime t).fps = T.fps := rfl
@[simp] theorem Timecode.setTime_df (T : Timecode) (t : Time) : (T.setTime t).df = T.df := rfl
@[simp] theorem Timecode.next_fps (T : Timecode) : T.next.fps = T.fps := rfl
@[simp] theorem Timecode.next_df (T : Timecode) : T.next.df = T.df := rfl
@[simp] theorem Timecode.prev_fps (T : Timecode) : T.prev.fps = T.fps := rfl
@[simp] theorem Timecode.prev_df (T : Timecode) : T.prev.df = T.df := rfl

/-! ### The carry and borrow chains -/

/-- Everything the carry chain can do. -/
theorem carryFrame_cases (n : Nat) (t : Time) :
    (t.ff + 1 < n ∧ carryFrame n t = ⟨t.hh, t.mm, t.ss, t.ff + 1⟩) ∨
    (n ≤ t.ff + 1 ∧ t.ss + 1 < 60 ∧ carryFrame n t = ⟨t.hh, t.mm, t.ss + 1, 0⟩) ∨
    (n ≤ t.ff + 1 ∧ 60 ≤ t.ss + 1 ∧ t.mm + 1 < 60 ∧ carryFrame n t = ⟨t.hh, t.mm + 1, 0, 0⟩) ∨
    (n ≤ t.ff + 1 ∧ 60 ≤ t.ss + 1 ∧ 60 ≤ t.mm + 1 ∧ t.hh + 1 < 24 ∧ carryFrame n t = ⟨t.hh + 1, 0, 0, 0⟩) ∨
    (n ≤ t.ff + 1 ∧ 60 ≤ t.ss + 1 ∧ 60 ≤ t.mm + 1 ∧ 24 ≤ t.hh + 1 ∧ carryFrame n t = ⟨0, 0, 0, 0⟩) := by
  unfold carryFrame
  split
  · split
    · split
      · split <;> simp <;> omega
      · simp; omega
    · simp; omega
  · simp; omega

/-- Everything the borrow chain can do. -/
theorem borrowFrame_cases (n : Nat) (t : Time) :
    (0 < t.ff ∧ borrowFrame n t = ⟨t.hh, t.mm, t.ss, t.ff - 1⟩) ∨
    (t.ff = 0 ∧ 0 < t.ss ∧ borrowFrame n t = ⟨t.hh, t.mm, t.ss - 1, n - 1⟩) ∨
    (t.ff = 0 ∧ t.ss = 0 ∧ 0 < t.mm ∧ borrowFrame n t = ⟨t.hh, t.mm - 1, 59, n - 1⟩) ∨
    (t.ff = 0 ∧ t.ss = 0 ∧ t.mm = 0 ∧ 0 < t.hh ∧ borrowFrame n t = ⟨t.hh - 1, 59, 59, n - 1⟩) ∨
    (t.ff = 0 ∧ t.ss = 0 ∧ t.mm = 0 ∧ t.hh = 0 ∧ borrowFrame n t = ⟨23, 59, 59, n - 1⟩) := by
  unfold borrowFrame
  split
  · simp; omega
  · split
    · simp; omega
    · split
      · simp; omega
      · split <;> simp <;> omega

theorem carryFrame_fits {n : Nat} {t : Time} (hn : n ≤ 30) (h : t.Fits) : (carryFrame n t).Fits := by
  obtain ⟨h1, h2, h3, h4⟩ := h
  rcases carryFrame_cases n t with ⟨c1, c⟩ | ⟨c1, c2, c⟩ | ⟨c1, c2, c3, c⟩ | ⟨c1, c2, c3, c4, c⟩ | ⟨c1, c2, c3, c4, c⟩ <;>
    rw [c] <;> simp only [Time.Fits] <;> omega

theorem borrowFrame_fits {n : Nat} {t : Time} (hn : n ≤ 30) (h : t.Fits) : (borrowFrame n t).Fits := by
  obtain ⟨h1, h2, h3, h4⟩ := h
  rcases borrowFrame_cases n t with ⟨c1, c⟩ | ⟨c1, c2, c⟩ | ⟨c1, c2, c3, c⟩ | ⟨c1, c2, c3, c4, c⟩ | ⟨c1, c2, c3, c4, c⟩ <;>
    rw [c] <;> simp only [Time.Fits] <;> omega

theorem carryFrame_legal {n : Nat} {t : Time} (_hn : 0 < n) (h : t.Legal n) : (carryFrame n t).Legal n := by
  obtain ⟨h1, h2, h3, h4⟩ := h
  rcases carryFrame_cases n t with ⟨c1, c⟩ | ⟨c1, c2, c⟩ | ⟨c1, c2, c3, c⟩ | ⟨c1, c2, c3, c4, c⟩ | ⟨c1, c2, c3, c4, c⟩ <;>
    rw [c] <;> simp only [Time.Legal] <;> omega

theorem borrowFrame_legal {n : Nat} {t : Time} (_hn : 0 < n) (h : t.Legal n) : (borrowFrame n t).Legal n := by
  obtain ⟨h1, h2, h3, h4⟩ := h
  rcases borrowFrame_cases n t with ⟨c1, c⟩ | ⟨c1, c2, c⟩ | ⟨c1, c2, c3, c⟩ | ⟨c1, c2, c3, c4, c⟩ | ⟨c1, c2, c3, c4, c⟩ <;>
    rw [c] <;> simp only [Time.Legal] <;> omega

/-- The borrow chain undoes the carry chain on a legal time. -/
theorem borrowFrame_carryFrame {n : Nat} {t : Time} (hn : 24 ≤ n) (h : t.Legal n) :
    borrowFrame n (carryFrame n t) = t := by
  obtain ⟨l1, l2, l3, l4⟩ := h
  have h2 := borrowFrame_cases n (carryFrame n t)
  rcases carryFrame_cases n t with ⟨c1, c⟩ | ⟨c1, c2, c⟩ | ⟨c1, c2, c3, c⟩ | ⟨c1, c2, c3, c4, c⟩ | ⟨c1, c2, c3, c4, c⟩ <;>
    rw [c] at h2 ⊢ <;>
    rcases h2 with ⟨d1, d⟩ | ⟨d1, d2, d⟩ | ⟨d1, d2, d3, d⟩ | ⟨d1, d2, d3, d4, d⟩ | ⟨d1, d2, d3, d4, d⟩ <;> rw [d] <;>
    cases t <;> simp only [Time.mk.injEq, true_and] at * <;> omega

/-- The carry chain undoes the borrow chain on a legal time. -/
theorem carryFrame_borrowFrame {n : Nat} {t : Time} (hn : 24 ≤ n) (h : t.Legal n) :
    carryFrame n (borrowFrame n t) = t := by
  obtain ⟨l1, l2, l3, l4⟩ := h
  have h2 := carryFrame_cases n (borrowFrame n t)
  rcases borrowFrame_cases n t with ⟨c1, c⟩ | ⟨c1, c2, c⟩ | ⟨c1, c2, c3, c⟩ | ⟨c1, c2, c3, c4, c⟩ | ⟨c1, c2, c3, c4, c⟩ <;>
    rw [c] at h2 ⊢ <;>
    rcases h2 with ⟨d1, d⟩ | ⟨d1, d2, d⟩ | ⟨d1, d2, d3, d⟩ | ⟨d1, d2, d3, d4, d⟩ | ⟨d1, d2, d3, d4, d⟩ <;> rw [d] <;>
    cases t <;> simp only [Time.mk.injEq, true_and] at * <;> omega

/-! ### The drop-frame skip -/

theorem skipDropped_fits {df : Bool} {t : Time} (h : t.Fits) : (skipDropped df t).Fits := by
  unfold skipDropped
  split
  · exact ⟨h.1, h.2.1, h.2.2.1, show 2 < 32 by decide⟩
  · exact h

/-- After the skip a legal time is legal and not dropped. -/
theorem skipDropped_loadable {n : Nat} {df : Bool} {t : Time} (hn : 2 < n) (h : t.Legal n) :
    (skipDropped df t).Legal n ∧ ¬(df = true ∧ (skipDropped df t).Dropped) := by
  unfold skipDropped
  split
  · exact ⟨⟨h.1, h.2.1, h.2.2.1, hn⟩, fun ⟨_, hd⟩ => absurd hd.2.1 (by simp)⟩
  · next hd => exact ⟨h, hd⟩

theorem skipDropped_of_loadable {df : Bool} {t : Time} (h : ¬(df = true ∧ t.Dropped)) : skipDropped df t = t := if_neg h

/-! ### NEXT_FRAME and PREV_FRAME -/

/-- NEXT_FRAME cuts nothing off, on any value of a register file. -/
theorem Timecode.next_time (T : Timecode) : T.next.time = nextTime (framesPerSecond T.fps) T.df T.time :=
  Timecode.time_setTime (skipDropped_fits (carryFrame_fits (framesPerSecond_bounds _).2 T.time_fits)) T

/-- PREV_FRAME cuts nothing off, on any value of a register file. -/
theorem Timecode.prev_time (T : Timecode) : T.prev.time = prevTime (framesPerSecond T.fps) T.df T.time := by
  refine Timecode.time_setTime (borrowFrame_fits (framesPerSecond_bounds _).2 ?_) T
  split
  · exact ⟨T.time_fits.1, T.time_fits.2.1, T.time_fits.2.2.1, show 0 < 32 by decide⟩
  · exact T.time_fits

/-- Reading a legal file after one frame forward gives a legal, undropped value. -/
theorem nextTime_loadable {n : Nat} {df : Bool} {t : Time} (hn : 24 ≤ n) (h : t.Legal n) :
    (nextTime n df t).Legal n ∧ ¬(df = true ∧ (nextTime n df t).Dropped) :=
  skipDropped_loadable (by omega) (carryFrame_legal (by omega) h)

/-- One frame back from a legal, undropped value is a legal, undropped value. -/
theorem prevTime_loadable {n : Nat} {df : Bool} {t : Time} (hn : 24 ≤ n) (h : t.Legal n ∧ ¬(df = true ∧ t.Dropped)) :
    (prevTime n df t).Legal n ∧ ¬(df = true ∧ (prevTime n df t).Dropped) := by
  obtain ⟨hl, hd⟩ := h
  unfold prevTime
  split
  · next hk =>
    refine ⟨borrowFrame_legal (by omega) ⟨hl.1, hl.2.1, hl.2.2.1, by simp only; omega⟩, ?_⟩
    rintro ⟨-, hd'⟩
    rcases borrowFrame_cases n { t with ff := 0 } with
      ⟨c1, c⟩ | ⟨c1, c2, c⟩ | ⟨c1, c2, c3, c⟩ | ⟨c1, c2, c3, c4, c⟩ | ⟨c1, c2, c3, c4, c⟩ <;>
      rw [c] at hd' <;> simp only [Time.Dropped] at * <;> omega
  · next hk =>
    refine ⟨borrowFrame_legal (by omega) hl, ?_⟩
    rintro ⟨hdf, hd'⟩
    rcases borrowFrame_cases n t with
      ⟨c1, c⟩ | ⟨c1, c2, c⟩ | ⟨c1, c2, c3, c⟩ | ⟨c1, c2, c3, c4, c⟩ | ⟨c1, c2, c3, c4, c⟩ <;>
      rw [c] at hd' <;> simp only [Time.Dropped, hdf, true_and] at * <;> omega

theorem Timecode.next_loadable {T : Timecode} (h : T.Loadable T.time) : T.next.Loadable T.next.time := by
  rw [T.next_time]
  exact nextTime_loadable (framesPerSecond_bounds T.fps).1 h.1

theorem Timecode.prev_loadable {T : Timecode} (h : T.Loadable T.time) : T.prev.Loadable T.prev.time := by
  rw [T.prev_time]
  exact prevTime_loadable (framesPerSecond_bounds T.fps).1 h

theorem Timecode.stepN_keeps (k : Nat) : ∀ T : Timecode, T.Loadable T.time →
    (Timecode.stepN k T).Loadable (Timecode.stepN k T).time ∧ (Timecode.stepN k T).fps = T.fps ∧
      (Timecode.stepN k T).df = T.df := by
  induction k with
  | zero => exact fun T h => ⟨h, rfl, rfl⟩
  | succ k ih => exact fun T h => ih T.next (Timecode.next_loadable h)

/-- A frame number of the rate stays one (42_ltc_decoder.md R200). -/
theorem nextTime_ff_lt {n : Nat} {df : Bool} {t : Time} (hn : 2 < n) : (nextTime n df t).ff < n := by
  unfold nextTime skipDropped
  split
  · exact hn
  · rcases carryFrame_cases n t with ⟨c1, c⟩ | ⟨c1, c2, c⟩ | ⟨c1, c2, c3, c⟩ | ⟨c1, c2, c3, c4, c⟩ | ⟨c1, c2, c3, c4, c⟩ <;>
      rw [c] <;> simp only <;> omega

theorem prevTime_ff_lt {n : Nat} {df : Bool} {t : Time} (hn : 2 < n) (h : t.ff < n) : (prevTime n df t).ff < n := by
  unfold prevTime
  have : ∀ u : Time, u.ff < n → (borrowFrame n u).ff < n := by
    intro u hu
    rcases borrowFrame_cases n u with ⟨c1, c⟩ | ⟨c1, c2, c⟩ | ⟨c1, c2, c3, c⟩ | ⟨c1, c2, c3, c4, c⟩ | ⟨c1, c2, c3, c4, c⟩ <;>
      rw [c] <;> simp only <;> omega
  split
  · exact this _ (by simp only; omega)
  · exact this _ h

end Sys2Proof.Machine
end

