-- ==== Sys2Proof/Laws/Invariant.lean ====
section
/-! SUPPORT. The parts of the invariant of Safety.lean: what each divider function keeps, that every queue operation keeps
the queues within their depths (20_memory.md R63), and that the plain updates of a state keep the invariant. -/

namespace Sys2Proof.Machine

/-! ### Operands -/

/-- Everything that MICRO_ADJUST and LOAD_CAL accept (43_clock_adjust.md R215). -/
theorem acceptCal_some {p : Params} {c : CalArg} {P : Int} {x : Rat} {q : Nat} (h : acceptCal p c P = some (x, q)) :
    c = .finite x ∧ (-p.calMax ≤ x ∧ x ≤ p.calMax) ∧ 0 < q ∧ (q : Int) = P := by
  unfold acceptCal at h
  split at h
  · split at h
    · next hc =>
      simp only [Option.some.injEq, Prod.mk.injEq] at h
      obtain ⟨rfl, rfl⟩ := h
      exact ⟨rfl, ⟨hc.1, hc.2.1⟩, by omega, by omega⟩
    · cases h
  all_goals cases h

theorem acceptCal_of_range {p : Params} {x : Rat} {P : Int} (h1 : -p.calMax ≤ x) (h2 : x ≤ p.calMax) (h3 : 0 < P) :
    acceptCal p (.finite x) P = some (x, P.toNat) := by
  simp [acceptCal, h1, h2, h3]

/-- An operand that names a running mode names a legal one that runs (44_engine_control.md R251). -/
theorem runningMode_some {j : Nat} {a : ModeArg} {m : Mode} (h : runningMode j a = some m) :
    modeLegal j m = true ∧ running m = true := by
  cases a <;> simp [runningMode] at h
  · subst h; exact ⟨rfl, rfl⟩
  · subst h; exact ⟨rfl, rfl⟩
  · obtain ⟨h1, rfl⟩ := h; simp [modeLegal, running, h1]

/-! ### Calibration values -/

/-- The integer part by the magnitude is the floor of the magnitude (43_clock_adjust.md R213). -/
theorem calInt_eq_floor (c : Rat) : (calInt c : Int) = ⌊|c|⌋ := by
  rw [Rat.floor_def', Rat.num_abs_eq_abs_num, Rat.den_abs_eq_den]
  simp [calInt]

theorem calInt_le {c m : Rat} (h : -m ≤ c ∧ c ≤ m) : calInt c ≤ calInt m := by
  have hh : |c| ≤ m := abs_le.mpr h
  have := Int.floor_le_floor hh
  rw [← calInt_eq_floor, ← abs_of_nonneg (le_trans (abs_nonneg _) hh), ← calInt_eq_floor] at this
  exact_mod_cast this

theorem fineOf_natAbs_le (dir : Direction) (c : Rat) : (fineOf dir c).natAbs ≤ 1 := by
  have : (calSgn c).natAbs ≤ 1 := by
    unfold calSgn
    rcases lt_trichotomy c.num 0 with h | h | h <;> simp [Int.sign_eq_neg_one_of_neg, Int.sign_eq_one_of_pos, h]
  rw [fineOf, Int.natAbs_mul]
  cases dir <;> simpa [directionSign] using this

theorem coarseOf_natAbs_le {p : Params} {c : Rat} (h : -p.calMax ≤ c ∧ c ≤ p.calMax) :
    (coarseOf p.calDir c).natAbs ≤ calInt p.calMax := by
  have hf := fineOf_natAbs_le p.calDir c
  rw [coarseOf, Int.natAbs_mul]
  calc _ ≤ 1 * ((calInt c : Int)).natAbs := Nat.mul_le_mul_right _ hf
    _ ≤ _ := by simpa using calInt_le h

/-- A cycle with an on phase has a fine offset. -/
theorem fineOf_ne_zero {r : OnRounding} {q : Nat} {c : Rat} (dir : Direction) (h : onTime r q c ≠ 0) : fineOf dir c ≠ 0 := by
  intro hf
  have hc : c.num = 0 := by
    unfold fineOf calSgn at hf
    rcases Int.mul_eq_zero.mp hf with h0 | h0
    · cases dir <;> simp [directionSign] at h0
    · exact Int.sign_eq_zero_iff_zero.mp h0
  have hn : calFracNum c = 0 := by simp [calFracNum, hc]
  exact h (by cases r <;> simp [onTime, onDuration, hn])

/-! ### The divider -/

/-- What the invariant says of the divider registers. -/
structure DividerFit (p : Params) (d : Divider) : Prop where
  sum : d.div = d.div0 + d.coarse + d.fine
  fine : d.fine.natAbs ≤ 1
  coarse : d.coarse.natAbs ≤ calInt p.calMax
  on : d.dstate = .on → d.fine ≠ 0
  off : d.dstate = .off → d.fine = 0
  idle : d.dstate = .idle → d.tMain = none ∧ d.tSafe = none
  timers : d.dstate ≠ .idle → d.tMain ≠ none ∧ d.tSafe = d.tMain.map (· + p.safetyMargin)
  tgt : -p.calMax ≤ d.calTgt ∧ d.calTgt ≤ p.calMax
  act : -p.calMax ≤ d.calAct ∧ d.calAct ≤ p.calMax
  period : 0 < d.period
  periodAct : 0 < d.periodAct

/-- BEGIN_CYCLE establishes every part of the divider's invariant that the phase and the timers take part in. -/
theorem beginCycle_fit {p : Params} {now : Nat} {d : Divider} (hc : d.coarse.natAbs ≤ calInt p.calMax)
    (ht : -p.calMax ≤ d.calTgt ∧ d.calTgt ≤ p.calMax) (hp : 0 < d.period) : DividerFit p (beginCycle p now d) := by
  have := fineOf_natAbs_le p.calDir d.calTgt
  unfold beginCycle
  simp only []
  split
  · constructor <;> simp_all
  · next hon =>
    have := fineOf_ne_zero p.calDir hon
    constructor <;> simp_all

theorem cancelDivider_fit {p : Params} {d : Divider} (h : DividerFit p d) : DividerFit p (cancelDivider d) := by
  cases h; constructor <;> simp_all [cancelDivider]

theorem adjustDivider_fit {p : Params} {now : Nat} {c : Rat} {q : Nat} {d : Divider} (h : DividerFit p d)
    (hc : -p.calMax ≤ c ∧ c ≤ p.calMax) (hq : 0 < q) : DividerFit p (adjustDivider p now c q d) := by
  have hk := coarseOf_natAbs_le hc
  unfold adjustDivider
  split
  · exact beginCycle_fit hk hc hq
  · cases h; constructor <;> simp_all

theorem mainFireDivider_fit {p : Params} {now : Nat} {d : Divider} (h : DividerFit p d) :
    DividerFit p (mainFireDivider p now d) := by
  unfold mainFireDivider
  split
  · exact h
  · simp only []
    split
    · exact beginCycle_fit h.coarse h.tgt h.period
    · cases h; constructor <;> simp_all [restoreDivider]
  · exact beginCycle_fit h.coarse h.tgt h.period

/-- `FINE` is there exactly in an on phase: what a running engine's divider satisfies (43_clock_adjust.md R212). -/
abbrev FineIffOn (d : Divider) : Prop := d.fine ≠ 0 ↔ d.dstate = .on

theorem beginCycle_fineIffOn (p : Params) (now : Nat) (d : Divider) : FineIffOn (beginCycle p now d) := by
  unfold beginCycle
  simp only []
  split
  · simp [FineIffOn]
  · next hon => simp [FineIffOn, fineOf_ne_zero p.calDir hon]

theorem adjustDivider_fineIffOn {p : Params} {now : Nat} {c : Rat} {q : Nat} {d : Divider} (h : FineIffOn d) :
    FineIffOn (adjustDivider p now c q d) := by
  unfold adjustDivider
  split
  · exact beginCycle_fineIffOn p now _
  · exact h

theorem mainFireDivider_fineIffOn {p : Params} {now : Nat} {d : Divider} (h : FineIffOn d) :
    FineIffOn (mainFireDivider p now d) := by
  unfold mainFireDivider
  split
  · exact h
  · simp only []
    split
    · exact beginCycle_fineIffOn p now _
    · simp [FineIffOn, restoreDivider]
  · exact beginCycle_fineIffOn p now _

/-! ### Queues -/

theorem QueuesFit.pushTx {s : State} (h : QueuesFit s) (w : Word) : QueuesFit (s.pushTx w) :=
  ⟨pushWord_length_le h.1 w, h.2⟩

theorem QueuesFit.pushEcho {s : State} (h : QueuesFit s) (w : Word) : QueuesFit (s.pushEcho w) :=
  ⟨h.1, h.2.1, pushWord_length_le h.2.2 w⟩

/-- LINE steps keep the queues within their depths. -/
theorem QueuesFit.lineFrame {s s' : State} (h : QueuesFit s) (f : LineFrame s s') : QueuesFit s' :=
  ⟨le_trans f.shorter h.1, f.par ▸ f.fits h.2.1, by rw [f.echoq, f.par]; exact h.2.2⟩

theorem QueuesFit.pushPacket {s : State} (h : QueuesFit s) (ws : List Word) (ps : List (List LineStep))
    (hw : s.txq.length + ws.length ≤ 8) : QueuesFit (pushPacket ws ps s) := by
  obtain ⟨n, -, f, -⟩ := pushPacket_frame ws ps s hw
  refine QueuesFit.lineFrame (s := { s with txq := s.txq ++ ws.take n }) ⟨?_, h.2⟩ f
  simp only [List.length_append, List.length_take, Config.txqDepth]
  omega

theorem QueuesFit.clearSession {s : State} (h : QueuesFit s) : QueuesFit s.clearSession :=
  ⟨Nat.zero_le _, Nat.zero_le _, h.2.2⟩

/-- A packet has as many words as TX_FRAME asks room for (41_ltc_encoder.md R176). -/
theorem encPacketOf_length (p : Params) (S : Timecode) (b : Bool) : (encPacketOf p S b).length = wordsNeeded b := by
  cases b <;> rfl

/-! ### Updates that the invariant does not see -/

variable {s : State}

theorem Inv.opened (h : Inv s) : Inv s.opened := { h with }
theorem Inv.heldUp (h : Inv s) : Inv s.heldUp := { h with }
theorem Inv.answer (h : Inv s) (r : Result) : Inv (s.answer r) := { h with }
theorem Inv.raise (h : Inv s) (e : Event) : Inv (s.raise e) := { h with }
theorem Inv.setSt (h : Inv s) {v : Status} (hv : v.underflow = s.st.underflow) : Inv (s.setSt v) :=
  { h with
    halted := fun hu => h.halted (hv ▸ hu)
    stopped := fun hr hu => h.stopped hr (hv ▸ hu) }

/-! ### Updates that it sees -/

theorem Inv.dividerFit (h : Inv s) : DividerFit s.par s.dv where
  sum := h.divider.1
  fine := h.divider.2.1
  coarse := h.divider.2.2.1
  on := h.divider.2.2.2.1
  off := h.divider.2.2.2.2
  idle := h.timers.1
  timers := h.timers.2
  tgt := h.cal.1
  act := h.cal.2.1
  period := h.cal.2.2.1
  periodAct := h.cal.2.2.2

theorem Inv.setDv (h : Inv s) {d : Divider} (k : DividerFit s.par d)
    (hs : running s.mode = false → s.st.underflow = false → d.dstate = .idle) : Inv (s.setDv d) :=
  { h with
    divider := ⟨k.sum, k.fine, k.coarse, k.on, k.off⟩
    timers := ⟨k.idle, k.timers⟩
    stopped := hs
    cal := ⟨k.tgt, k.act, k.period, k.periodAct⟩ }

theorem Inv.setTc (h : Inv s) (t : File) {v : Timecode} (h1 : t = .tx → v.LegalFile)
    (h2 : t = .rx → v.time.ff < framesPerSecond v.fps) : Inv (s.setTc t v) := by
  cases t
  · exact { h with tx := h1 rfl }
  · exact { h with rx := h2 rfl }

theorem Inv.lineFrame {s' : State} (h : Inv s) (f : LineFrame s s') : Inv s' where
  params := f.par ▸ h.params
  queues := h.queues.lineFrame f
  tx := by unfold TxLegal; rw [f.tx]; exact h.tx
  rx := by unfold RxFrameLegal; rw [f.rx]; exact h.rx
  mode := by
    rw [f.par]
    rcases f.engine with ⟨m, -⟩ | ⟨-, m, -⟩ <;> rw [m]
    · exact h.mode
    · rfl
  divider := by unfold DividerConsistent; rw [f.dv, f.par]; exact h.divider
  timers := by unfold TimersPaired; rw [f.dv, f.par]; exact h.timers
  halted := by
    rcases f.engine with ⟨m, r, -, u⟩ | ⟨-, m, r, -⟩ <;> unfold UnderflowHalts
    · rw [m, r, u]; exact h.halted
    · rw [m, r]; exact fun _ => ⟨rfl, rfl⟩
  stopped := by
    rcases f.engine with ⟨m, -, -, u⟩ | ⟨-, -, -, -, u, -⟩ <;> unfold StoppedIsIdle <;> rw [u, f.dv]
    · rw [m]; exact h.stopped
    · exact fun _ hu => by cases hu
  cal := by unfold CalInRange; rw [f.dv, f.par]; exact h.cal
  line := by
    unfold LineLowIffStopped
    rcases f.engine with ⟨m, -, o, -⟩ | ⟨-, m, -, o, -⟩ <;> rw [m, o]
    · exact h.line
    · simp [running]
  locks := by unfold LocksDisciplined; rw [f.txLock, f.rxLock, f.divLock]; exact h.locks

end Sys2Proof.Machine
end

