-- ==== Sys2Proof/Laws/PerInstr.lean ====
section
/-! SUPPORT. A statement for each instruction as syntax: the first byte of its encoding is the code that 30_encoding.md R112
lists for it, and a data format has no code. -/

namespace Sys2Proof.Laws.OpcodeByte

/-- The operation codes of 30_encoding.md R112, as its table lists them. -/
def codeOf : Instr → Option Byte
  | .setFpsDf _ _ _ => some 0x01#8
  | .loadTc _ _ _ _ _ => some 0x02#8
  | .nextFrame _ => some 0x03#8
  | .prevFrame _ => some 0x04#8
  | .toRaw _ => some 0x05#8
  | .toAscii _ => some 0x06#8
  | .fromAscii _ _ => some 0x07#8
  | .setUb _ _ _ _ _ _ _ _ _ => some 0x08#8
  | .setFlags _ _ _ _ _ => some 0x09#8
  | .readRawStable _ => some 0x0A#8
  | .encPacket _ => some 0x10#8
  | .txFrame => some 0x11#8
  | .decPacket _ _ => some 0x18#8
  | .decPacket3 _ _ _ => some 0x19#8
  | .decFrame80 _ _ _ => some 0x1A#8
  | .rxPoll => some 0x1B#8
  | .microAdjust _ _ => some 0x20#8
  | .mainFire => some 0x21#8
  | .safeFire => some 0x22#8
  | .cancelDither => some 0x23#8
  | .loadCal _ _ => some 0x24#8
  | .start _ => some 0x30#8
  | .stop => some 0x31#8
  | .setMode _ => some 0x32#8
  | .acquire _ => some 0x33#8
  | .release _ => some 0x34#8
  | .jamLoad _ => some 0x35#8
  | .lineTxPop => some 0x40#8
  | .lineRxPush _ => some 0x41#8
  | .ltcW0 _ | .ltcW1 _ | .p3X0 _ | .p3X1 _ _ | .p3X2 _ | .sync16 | .raw32 _ => none

/-- An operation's encoding begins with its code and decodes in the operation form; a data format is in another form. -/
def Statement (i : Instr) : Prop :=
  match codeOf i with
  | some c => i.form = .op ∧ ∃ operands, encode i = c :: operands
  | none => i.form ≠ .op

theorem setFpsDf (t : File) (fps : BitVec 3) (df : Bool) : Statement (.setFpsDf t fps df) := ⟨rfl, _, rfl⟩
theorem loadTc (t : File) (hh mm ss ff : Nat) : Statement (.loadTc t hh mm ss ff) := ⟨rfl, _, rfl⟩
theorem nextFrame (t : File) : Statement (.nextFrame t) := ⟨rfl, _, rfl⟩
theorem prevFrame (t : File) : Statement (.prevFrame t) := ⟨rfl, _, rfl⟩
theorem toRaw (t : File) : Statement (.toRaw t) := ⟨rfl, _, rfl⟩
theorem toAscii (t : File) : Statement (.toAscii t) := ⟨rfl, _, rfl⟩
theorem fromAscii (t : File) (s : List Byte) : Statement (.fromAscii t s) := ⟨rfl, _, rfl⟩
theorem setUb (t : File) (n1 n2 n3 n4 n5 n6 n7 n8 : Nibble) : Statement (.setUb t n1 n2 n3 n4 n5 n6 n7 n8) := ⟨rfl, _, rfl⟩
theorem setFlags (t : File) (cf clk bgf0 bgf2 : Bool) : Statement (.setFlags t cf clk bgf0 bgf2) := ⟨rfl, _, rfl⟩
theorem readRawStable (t : File) : Statement (.readRawStable t) := ⟨rfl, _, rfl⟩
theorem encPacket (b : Bool) : Statement (.encPacket b) := ⟨rfl, _, rfl⟩
theorem txFrame : Statement .txFrame := ⟨rfl, _, rfl⟩
theorem decPacket (w0 w1 : Word) : Statement (.decPacket w0 w1) := ⟨rfl, _, rfl⟩
theorem decPacket3 (x0 x1 x2 : Word) : Statement (.decPacket3 x0 x1 x2) := ⟨rfl, _, rfl⟩
theorem decFrame80 (w0 w1 : Word) (s16 : Half) : Statement (.decFrame80 w0 w1 s16) := ⟨rfl, _, rfl⟩
theorem rxPoll : Statement .rxPoll := ⟨rfl, _, rfl⟩
theorem microAdjust (c : CalArg) (p : Option Int) : Statement (.microAdjust c p) := ⟨rfl, _, rfl⟩
theorem mainFire : Statement .mainFire := ⟨rfl, _, rfl⟩
theorem safeFire : Statement .safeFire := ⟨rfl, _, rfl⟩
theorem cancelDither : Statement .cancelDither := ⟨rfl, _, rfl⟩
theorem loadCal (c : CalArg) (p : Option Int) : Statement (.loadCal c p) := ⟨rfl, _, rfl⟩
theorem start (m : ModeArg) : Statement (.start m) := ⟨rfl, _, rfl⟩
theorem stop : Statement .stop := ⟨rfl, _, rfl⟩
theorem setMode (m : ModeArg) : Statement (.setMode m) := ⟨rfl, _, rfl⟩
theorem acquire (l : Lock) : Statement (.acquire l) := ⟨rfl, _, rfl⟩
theorem release (l : Lock) : Statement (.release l) := ⟨rfl, _, rfl⟩
theorem jamLoad (k : Nat) : Statement (.jamLoad k) := ⟨rfl, _, rfl⟩
theorem lineTxPop : Statement .lineTxPop := ⟨rfl, _, rfl⟩
theorem lineRxPush (w : Word) : Statement (.lineRxPush w) := ⟨rfl, _, rfl⟩
theorem ltcW0 (f : LtcW0) : Statement (.ltcW0 f) := nofun
theorem ltcW1 (f : LtcW1) : Statement (.ltcW1 f) := nofun
theorem p3X0 (w : Half) : Statement (.p3X0 w) := nofun
theorem p3X1 (v w : Half) : Statement (.p3X1 v w) := nofun
theorem p3X2 (v : Half) : Statement (.p3X2 v) := nofun
theorem sync16 : Statement .sync16 := nofun
theorem raw32 (f : Raw32) : Statement (.raw32 f) := nofun

end Sys2Proof.Laws.OpcodeByte
end

