-- ==== Sys2Proof/Tests/Slice0.lean ====
section
/-! SUPPORT. Tests: an ill-formed operation for each check of WellFormed.lean; a hand-written encoding for every row of the
opcode table; the test vectors of 95_test_vectors.md, by their numbers; and for every obligation with hypotheses a state and
operands that meet them. -/

namespace Sys2Proof.Tests

open Sys2Proof Sys2Proof.Machine

/-! ### Helpers -/

/-- Parameters with numbers in place of the four that the spec gives no default for. -/
def params : Params :=
  { Config.params with
    div0 := ⟨1000, 1001, 1002, 1003, 1004, 1005⟩, safetyMargin := 7, divStep := mkRat 1 1000000, jamOffset := 2 }

/-- The block after reset, RT's step. -/
def stopped : State := { State.resetWith params with agent := .rt }

/-- The block while it runs, with nothing queued, RT's step. -/
def live : State := { stopped with mode := .run, lineOut := .driven }

/-- A register file at a rate and a time. -/
def fileAt (fps : Rate) (df : Bool) (hh mm ss ff : Nat) : Timecode :=
  { Timecode.reset with fps := fps, df := df }.setTime ⟨hh, mm, ss, ff⟩

/-- TX at a rate and a time. -/
def txAt (s : State) (fps : Rate) (df : Bool) (hh mm ss ff : Nat) : State := { s with tx := fileAt fps df hh mm ss ff }

/-- RX at a rate and a time. -/
def rxAt (s : State) (fps : Rate) (df : Bool) (hh mm ss ff : Nat) : State := { s with rx := fileAt fps df hh mm ss ff }

/-- The outcome is a next state of which the test holds. -/
def nextIs (o : Out) (test : State → Bool) : Bool :=
  match o with
  | .next s => test s
  | .fault _ => false
  | .refused _ => false

/-- The outcome is this refusal. -/
def refusedAs (o : Out) (r : Refusal) : Bool :=
  match o with
  | .next _ => false
  | .fault _ => false
  | .refused e => decide (e = r)

/-- The time of TX. -/
def txTime (s : State) : Time := s.tx.time

/-! ### Well-formedness: an ill-formed term for each check -/

theorem smoke_loadTc_hh : (Instr.loadTc .tx (2 ^ 32) 0 0 0).wf = false := by decide
theorem smoke_loadTc_mm : (Instr.loadTc .tx 0 (2 ^ 32) 0 0).wf = false := by decide
theorem smoke_loadTc_ss : (Instr.loadTc .tx 0 0 (2 ^ 32) 0).wf = false := by decide
theorem smoke_loadTc_ff : (Instr.loadTc .tx 0 0 0 (2 ^ 32)).wf = false := by decide
theorem smoke_fromAscii {s : List Byte} (h : s.length = 256) : (Instr.fromAscii .tx s).wf = false := by
  simp [Instr.wf, h]
theorem smoke_microAdjust_num : (Instr.microAdjust (.finite (mkRat (-(2 ^ 64)) 1)) none).wf = false := by decide
theorem smoke_microAdjust_den : (Instr.microAdjust (.finite (mkRat 1 (2 ^ 64 + 1))) none).wf = false := by decide
theorem smoke_microAdjust_period : (Instr.microAdjust .nan (some (2 ^ 64))).wf = false := by decide
theorem smoke_loadCal_num : (Instr.loadCal (.finite (mkRat (2 ^ 64) 1)) none).wf = false := by decide
theorem smoke_loadCal_period : (Instr.loadCal .nan (some (-(2 ^ 64)))).wf = false := by decide
theorem smoke_start_count : (Instr.start (.jamming (2 ^ 32))).wf = false := by decide
theorem smoke_start_tag : (Instr.start (.notAMode 3)).wf = false := by decide
theorem smoke_setMode_tag : (Instr.setMode (.notAMode 0)).wf = false := by decide
theorem smoke_jamLoad : (Instr.jamLoad (2 ^ 32)).wf = false := by decide

/-! ### Decoding: the code of 30_encoding.md R112, then operand bytes; words by R92, R93, R96, R102 and R105 -/

theorem test_decode_setFpsDf : decode .op [0x01#8, 1#8, 5#8, 1#8] = some (.setFpsDf .rx 5 true, []) := by decide
theorem test_decode_loadTc : decode .op [0x02#8, 0#8, 23#8, 0#8, 0#8, 0#8, 59#8, 0#8, 0#8, 0#8, 58#8, 0#8, 0#8, 0#8,
    0x00#8, 0x01#8, 0#8, 0#8] = some (.loadTc .tx 23 59 58 256, []) := by decide
theorem test_decode_nextFrame : decode .op [0x03#8, 0#8] = some (.nextFrame .tx, []) := by decide
theorem test_decode_prevFrame : decode .op [0x04#8, 1#8, 9#8] = some (.prevFrame .rx, [9#8]) := by decide
theorem test_decode_toRaw : decode .op [0x05#8, 0#8] = some (.toRaw .tx, []) := by decide
theorem test_decode_toAscii : decode .op [0x06#8, 1#8] = some (.toAscii .rx, []) := by decide
theorem test_decode_fromAscii : decode .op [0x07#8, 0#8, 2#8, 0x31#8, 0x3A#8, 7#8] =
    some (.fromAscii .tx [0x31#8, 0x3A#8], [7#8]) := by decide
theorem test_decode_setUb : decode .op [0x08#8, 0#8, 1#8, 2#8, 3#8, 4#8, 5#8, 6#8, 7#8, 15#8] =
    some (.setUb .tx 1 2 3 4 5 6 7 15, []) := by decide
theorem test_decode_setFlags : decode .op [0x09#8, 1#8, 1#8, 0#8, 1#8, 0#8] =
    some (.setFlags .rx true false true false, []) := by decide
theorem test_decode_readRawStable : decode .op [0x0A#8, 1#8] = some (.readRawStable .rx, []) := by decide
theorem test_decode_encPacket : decode .op [0x10#8, 1#8] = some (.encPacket true, []) := by decide
theorem test_decode_txFrame : decode .op [0x11#8] = some (.txFrame, []) := by decide
theorem test_decode_decPacket : decode .op [0x18#8, 0x04#8, 0x00#8, 0x03#8, 0x00#8, 0x02#8, 0x00#8, 0x01#8, 0x80#8] =
    some (.decPacket 0x00030004#32 0x80010002#32, []) := by decide
theorem test_decode_decPacket3 : decode .op [0x19#8, 0xFC#8, 0xBF#8, 0x04#8, 0#8, 0x03#8, 0#8, 0x02#8, 0#8, 0x01#8, 0#8,
    0xFC#8, 0xBF#8] = some (.decPacket3 0x0004BFFC#32 0x00020003#32 0xBFFC0001#32, []) := by decide
theorem test_decode_decFrame80 : decode .op [0x1A#8, 0#8, 0#8, 0#8, 0x08#8, 0#8, 0#8, 0#8, 0#8, 0xFC#8, 0xBF#8] =
    some (.decFrame80 0x08000000#32 0 0xBFFC#16, []) := by decide
theorem test_decode_rxPoll : decode .op [0x1B#8] = some (.rxPoll, []) := by decide
theorem test_decode_microAdjust : decode .op ([0x20#8, 0#8, 1#8, 9#8, 0#8, 0#8, 0#8, 0#8, 0#8, 0#8, 0#8]
    ++ [3#8, 0#8, 0#8, 0#8, 0#8, 0#8, 0#8, 0#8] ++ [0#8]) = some (.microAdjust (.finite (mkRat (-9) 4)) none, []) := by decide
theorem test_decode_mainFire : decode .op [0x21#8] = some (.mainFire, []) := by decide
theorem test_decode_safeFire : decode .op [0x22#8] = some (.safeFire, []) := by decide
theorem test_decode_cancelDither : decode .op [0x23#8] = some (.cancelDither, []) := by decide
theorem test_decode_loadCal : decode .op ([0x24#8, 1#8] ++ [1#8, 0#8, 0x10#8, 0x27#8, 0#8, 0#8, 0#8, 0#8, 0#8, 0#8]) =
    some (.loadCal .nan (some 10000), []) ∧ decode .op [0x24#8, 1#8, 0#8] = some (.loadCal .nan none, []) := by decide
theorem test_decode_start : decode .op [0x30#8, 3#8, 64#8, 0#8, 0#8, 0#8] = some (.start (.jamming 64), []) := by decide
theorem test_decode_stop : decode .op [0x31#8] = some (.stop, []) := by decide
theorem test_decode_setMode : decode .op [0x32#8, 2#8] = some (.setMode .monitor, []) := by decide
theorem test_decode_acquire : decode .op [0x33#8, 2#8] = some (.acquire .div, []) := by decide
theorem test_decode_release : decode .op [0x34#8, 1#8] = some (.release .rx, []) := by decide
theorem test_decode_jamLoad : decode .op [0x35#8, 2#8, 0#8, 0#8, 0#8] = some (.jamLoad 2, []) := by decide
theorem test_decode_lineTxPop : decode .op [0x40#8] = some (.lineTxPop, []) := by decide
theorem test_decode_lineRxPush : decode .op [0x41#8, 0x78#8, 0x56#8, 0x34#8, 0x12#8] =
    some (.lineRxPush 0x12345678#32, []) := by decide
theorem test_decode_ltcW0 : decode .w0 [0x17#8, 0x29#8, 0x36#8, 0x45#8] =
    some (.ltcW0 ⟨7, 1, 1, false, true, 2, 6, 3, 5, false, 4⟩, []) := by decide
theorem test_decode_ltcW1 : decode .w1 [0x54#8, 0x6B#8, 0x72#8, 0x85#8] =
    some (.ltcW1 ⟨4, 5, 3, true, 6, 2, 7, 1, true, false, 8⟩, []) := by decide
theorem test_decode_p3X0 : decode .x0 [0xFC#8, 0xBF#8, 0x17#8, 0x29#8] = some (.p3X0 0x2917#16, []) := by decide
theorem test_decode_p3X1 : decode .x1 [0x36#8, 0x45#8, 0x54#8, 0x6B#8] = some (.p3X1 0x6B54#16 0x4536#16, []) := by decide
theorem test_decode_p3X2 : decode .x2 [0x72#8, 0x85#8, 0xFC#8, 0xBF#8] = some (.p3X2 0x8572#16, []) := by decide
theorem test_decode_sync16 : decode .sync [0xFC#8, 0xBF#8] = some (.sync16, []) := by decide
theorem test_decode_raw32 : decode .raw [0x02#8, 0x00#8, 0x01#8, 0x80#8] = some (.raw32 ⟨true, 0, 1, 0, 2⟩, []) := by decide
theorem test_decode_reserved : decode .op [0x0B#8, 0#8] = none ∧ decode .op [0x00#8] = none ∧ decode .op [0xFF#8] = none := by
  decide
theorem test_table_words : decodeTableWord 8 0x20 = some (.microAdjust (.finite 0) none) ∧
    decodeTableWord 32 0x0000BFFC = some (.p3X0 0) ∧ decodeTableWord 32 0xBFFC0000 = some (.p3X2 0) := by decide

/-! ### Vectors of 95_test_vectors.md -/

/-- T30 and T33. -/
theorem test_setFpsDf : nextIs (exec (.setFpsDf .tx 1 true) stopped)
    (fun s => decide (s.result = .bool true ∧ s.tx.fps = .r2997 ∧ s.tx.df = true)) = true ∧
    nextIs (exec (.setFpsDf .tx 6 false) stopped) (fun s => decide (s.events = [.setFpsReject] ∧ s.tx = stopped.tx)) = true := by
  decide
/-- T35. -/
theorem test_setFpsDf_revalidates : nextIs (exec (.setFpsDf .tx 1 true) (txAt stopped .r30 false 0 1 0 0))
    (fun s => decide (txTime s = ⟨0, 1, 0, 2⟩)) = true := by decide
/-- T37 and T38. -/
theorem test_loadTc : nextIs (exec (.loadTc .tx 10 0 0 0) (txAt stopped .r25 false 0 0 0 0))
    (fun s => decide (s.result = .bool true ∧ txTime s = ⟨10, 0, 0, 0⟩)) = true ∧
    nextIs (exec (.loadTc .tx 0 0 0 25) (txAt stopped .r25 false 0 0 0 0)) (fun s => decide (s.events = [.loadReject])) = true := by
  decide
/-- T39. -/
theorem test_loadTc_dropped : nextIs (exec (.loadTc .tx 0 1 0 1) (txAt stopped .r2997 true 0 0 0 0))
    (fun s => decide (s.result = .bool false ∧ txTime s = ⟨0, 0, 0, 0⟩)) = true := by decide
/-- T3. -/
theorem test_nextFrame_skips : nextIs (exec (.nextFrame .tx) (txAt stopped .r2997 true 0 0 59 29))
    (fun s => decide (txTime s = ⟨0, 1, 0, 2⟩)) = true := by decide
/-- T21. -/
theorem test_nextFrame_illegal : nextIs (exec (.nextFrame .rx) (rxAt stopped .r30 false 0 0 75 29))
    (fun s => decide (s.rx.time = ⟨0, 1, 0, 0⟩)) = true := by decide
/-- T11. -/
theorem test_prevFrame_wraps : nextIs (exec (.prevFrame .tx) (txAt stopped .r25 false 0 0 0 0))
    (fun s => decide (txTime s = ⟨23, 59, 59, 24⟩)) = true := by decide
/-- T20. -/
theorem test_prevFrame_dropped : nextIs (exec (.prevFrame .rx) (rxAt stopped .r2997 true 0 1 0 1))
    (fun s => decide (s.rx.time = ⟨0, 0, 59, 29⟩)) = true := by decide
/-- T49. -/
theorem test_toRaw : nextIs (exec (.toRaw .tx) (txAt stopped .r2997 true 0 1 0 2))
    (fun s => decide (s.result = .word 0x80010002#32)) = true := by decide
/-- T52: "00:01:00.02". -/
theorem test_toAscii : nextIs (exec (.toAscii .tx) (txAt stopped .r2997 true 0 1 0 2))
    (fun s => decide (s.result = .chars [0x30#8, 0x30#8, 0x3A#8, 0x30#8, 0x31#8, 0x3A#8, 0x30#8, 0x30#8, 0x2E#8, 0x30#8,
      0x32#8])) = true := by decide
/-- T44: "00:00:59.28" at 30 fps leaves `df` 0. -/
theorem test_fromAscii : nextIs (exec (.fromAscii .tx [0x30#8, 0x30#8, 0x3A#8, 0x30#8, 0x30#8, 0x3A#8, 0x35#8, 0x39#8, 0x2E#8,
    0x32#8, 0x38#8]) stopped) (fun s => decide (txTime s = ⟨0, 0, 59, 28⟩ ∧ s.tx.df = false)) = true := by decide
/-- T45: "1a:00:00:00". -/
theorem test_fromAscii_malformed : nextIs (exec (.fromAscii .tx [0x31#8, 0x61#8, 0x3A#8, 0x30#8, 0x30#8, 0x3A#8, 0x30#8, 0x30#8,
    0x3A#8, 0x30#8, 0x30#8]) stopped) (fun s => decide (s.result = .bool false)) = true := by decide
/-- T53. -/
theorem test_setUb : nextIs (exec (.setUb .tx 1 2 3 4 5 6 7 8) stopped)
    (fun s => decide (s.tx.uf1 = 1 ∧ s.tx.uf4 = 4 ∧ s.tx.uf5 = 5 ∧ s.tx.uf8 = 8)) = true := by decide
/-- T54. -/
theorem test_setFlags : nextIs (exec (.setFlags .tx true true true false) stopped)
    (fun s => decide (s.tx.cf = true ∧ s.tx.clk = true ∧ s.tx.bgf0 = true ∧ s.tx.bgf2 = false)) = true := by decide
/-- 40_timecode_ops.md R142: two reads that differ are repeated, two equal torn ones are delivered. -/
theorem test_readRawStable : nextIs (exec (.readRawStable .tx) { txAt stopped .r30 false 1 0 0 0 with
      newTx := (fileAt .r30 false 2 3 4 5).rawFields,
      tears := [(⟨false, true, false, false, false⟩, ⟨false, false, false, false, false⟩)] })
    (fun s => decide (s.result = .word 0x01000000#32)) = true := by decide
/-- 40_timecode_ops.md R142: a read beside RT's NEXT_FRAME of 00:59:59:29 finds the hours new and the rest old in both reads. -/
theorem test_readRawStable_torn : nextIs (step { txAt live .r30 false 0 59 59 29 with
      port := [⟨.rt, .op .op [0x03#8, 0#8]⟩, ⟨.ui, .op .op [0x0A#8, 0#8]⟩],
      sched := [⟨.ui, 0, [], some .rt, [(⟨false, true, false, false, false⟩, ⟨false, true, false, false, false⟩)]⟩] })
    (fun s => decide (s.result = .word 0x013B3B1D#32 ∧ txTime s = ⟨0, 59, 59, 29⟩ ∧ s.inProgress = some .rt)) = true := by decide
/-- 20_memory.md R72: until the NEXT_FRAME that the read found in progress has run, HOST's STOP is held. -/
theorem test_inProgress_first : nextIs (step { txAt live .r30 false 0 59 59 29 with
      inProgress := some .rt, port := [⟨.host, .op .op [0x31#8]⟩, ⟨.rt, .op .op [0x03#8, 0#8]⟩], sched := [⟨.host, 0, [], none, []⟩] })
      (fun s => decide (s.result = .held ∧ s.stopReq = false)) = true ∧
    nextIs (step { txAt live .r30 false 0 59 59 29 with
      inProgress := some .rt, port := [⟨.host, .op .op [0x31#8]⟩, ⟨.rt, .op .op [0x03#8, 0#8]⟩], sched := [⟨.rt, 0, [], none, []⟩] })
      (fun s => decide (s.inProgress = none ∧ txTime s = ⟨1, 0, 0, 0⟩)) = true := by decide

/-- The register file of vectors E18 and E19, at a rate. -/
def e18 (fps : Rate) : Timecode :=
  ((fileAt fps false 12 34 56 17).setUserBits 1 2 3 4 5 6 7 8).setFlags true true true false

/-- E18. -/
theorem test_encPacket : nextIs (exec (.encPacket false) { stopped with tx := e18 .r30 })
    (fun s => decide (s.result = .words [0x45362917#32, 0x85726B54#32])) = true := by decide
/-- E19, the 3-word packet. -/
theorem test_encPacket_sync : nextIs (exec (.encPacket true) { stopped with tx := e18 .r25 })
    (fun s => decide (s.result = .words [0x2917BFFC#32, 0x63544D36#32, 0xBFFC8572#32])) = true := by decide
/-- E30. -/
theorem test_txFrame : nextIs (exec .txFrame (txAt live .r2997 true 0 0 59 29))
    (fun s => decide (s.txq = [0x0609BFFC#32, 0x00000D09#32, 0xBFFC0000#32] ∧ s.echoq = [0x80003B1D#32] ∧
      s.syncph = false ∧ txTime s = ⟨0, 1, 0, 2⟩)) = true := by decide
/-- 60_exceptions.md R286: UNDERFLOW before the first push leaves no word of the packet; TX still advances. -/
theorem test_txFrame_underflow : nextIs (exec .txFrame { live with between := [[.pop], [], [.pop]] })
    (fun s => decide (s.mode = .halted ∧ s.txq = [] ∧ s.lineWords = [] ∧ txTime s = ⟨0, 0, 0, 1⟩ ∧ s.echoq = [0])) = true := by
  decide
/-- E32. -/
theorem test_txFrame_holds : nextIs (exec .txFrame { live with txq := [1, 2, 3, 4, 5, 6] })
    (fun s => decide (s.result = .held ∧ s.txq.length = 6)) = true := by decide
/-- V4. -/
theorem test_decPacket : nextIs (exec (.decPacket 0x45362917#32 0x85726B54#32) stopped)
    (fun s => decide (s.result = .bool true ∧ s.st.rxPerr = false ∧ s.rx = e18 .r30)) = true := by decide
/-- V7. -/
theorem test_decPacket_rejects : nextIs (exec (.decPacket 0x00000205#32 0) (rxAt stopped .r25 false 0 0 0 0))
    (fun s => decide (s.events = [.decodeReject] ∧ s.st.rxOk = false)) = true := by decide
/-- V2. -/
theorem test_decPacket3 : nextIs (exec (.decPacket3 0x0004BFFC#32 0x00020003#32 0xBFFC0001#32) stopped)
    (fun s => decide (s.rx.time = ⟨1, 2, 3, 4⟩)) = true := by decide
/-- V15. -/
theorem test_decPacket3_sync : nextIs (exec (.decPacket3 0x0004BFFC#32 0x00020003#32 0xBFFD0001#32) stopped)
    (fun s => decide (s.events = [.syncErr] ∧ s.st.rxSyncErr = true)) = true := by decide
/-- V3. -/
theorem test_decFrame80 : nextIs (exec (.decFrame80 0x08000000#32 0 0xBFFC#16) stopped)
    (fun s => decide (s.result = .bool true ∧ s.st.rxPerr = false)) = true := by decide
/-- V14: the sync word with its bits reversed. -/
theorem test_decFrame80_sync : nextIs (exec (.decFrame80 0x08000000#32 0 0x3FFD#16) stopped)
    (fun s => decide (s.events = [.syncErr])) = true := by decide
/-- V20: a word slip, with good parity. -/
theorem test_rxPoll : nextIs (exec .rxPoll { live with rxq := [0x00010002#32, 0x08030005#32, 0x00010002#32, 0x08030006#32] })
    (fun s => decide (s.rx.time = ⟨3, 5, 1, 2⟩ ∧ s.rx.bgf2 = true ∧ s.st.rxPerr = false ∧ s.rxq.length = 2)) = true := by decide
/-- 42_ltc_decoder.md R197 and R194: the pops take no lock; DEC_PACKET waits for RX.lock, and then decodes the popped words. -/
theorem test_rxPoll_holds : nextIs (exec .rxPoll { live with rxLock := some .ui, rxq := [0x00010002#32, 0x08030005#32, 7] })
    (fun s => decide (s.result = .held ∧ s.rxHeld = some (0x00010002#32, 0x08030005#32) ∧ s.rxq = [7] ∧ s.rx = live.rx) &&
      nextIs (exec .rxPoll { s with rxLock := none })
        (fun d => decide (d.rx.time = ⟨3, 5, 1, 2⟩ ∧ d.rxHeld = none ∧ d.rxq = [7]))) = true := by decide
/-- V18. -/
theorem test_rxPoll_waits : nextIs (exec .rxPoll { live with rxq := [0x08030005#32] })
    (fun s => decide (s.result = .none ∧ s.rxq = [0x08030005#32])) = true := by decide
/-- A2: the fraction is of the magnitude. -/
theorem test_microAdjust : nextIs (exec (.microAdjust (.finite (mkRat (-9) 4)) (some 10000)) live)
    (fun s => decide (s.dv.coarse = -2 ∧ s.dv.fine = -1 ∧ s.dv.div = 997 ∧ s.dv.dstate = .on ∧ s.dv.tMain = some 2500 ∧
      s.dv.tSafe = some 2507)) = true := by decide
/-- A8. -/
theorem test_microAdjust_range : nextIs (exec (.microAdjust (.finite (mkRat 101 2)) (some 10000)) live)
    (fun s => decide (s.events = [.calRange] ∧ s.dv = live.dv)) = true := by decide

/-- The divider of vector A12: off phase, -0.5 requested, 2.25 in force. -/
def a12 : Divider :=
  { live.dv with calTgt := mkRat (-1) 2, calAct := mkRat 9 4, dstate := .off, tMain := some 10000, tSafe := some 10007 }

/-- The divider of vector A1: 2.25 in force, the on phase. -/
def a1 : Divider :=
  { live.dv with calTgt := mkRat 9 4, calAct := mkRat 9 4, coarse := 2, fine := 1, div := 1003, dstate := .on,
                 tMain := some 2500, tSafe := some 2507 }

/-- A12, from A11 without its change of target. -/
theorem test_mainFire_on : nextIs (exec .mainFire { live with agent := .timer, now := 2500, dv := a1 })
    (fun s => decide (s.dv.div = 1002 ∧ s.dv.dstate = .off ∧ s.dv.tMain = some 10000 ∧ s.dv.tSafe = some 10007)) = true := by
  decide
/-- A13. -/
theorem test_mainFire_off : nextIs (exec .mainFire { live with agent := .timer, now := 10000, dv := a12 })
    (fun s => decide (s.dv.div = 999 ∧ s.dv.calAct = mkRat (-1) 2 ∧ s.dv.tMain = some 15000)) = true := by decide
/-- A14. -/
theorem test_safeFire : nextIs (exec .safeFire { live with agent := .timer, now := 2507, dv := a1 })
    (fun s => decide (s.st.safetyCount = 1 ∧ s.events = [.safetyTimeout] ∧ s.dv.div = 1003 ∧ s.dv.tMain = some 5007 ∧
      s.dv.tSafe = some 5014)) = true := by decide
/-- A17. -/
theorem test_safeFire_stale : nextIs (exec .safeFire { live with agent := .timer })
    (fun s => decide (s.dv = live.dv ∧ s.events = [])) = true := by decide
/-- A15, in the stopped engine. -/
theorem test_cancelDither : nextIs (exec .cancelDither { stopped with dv := a1 })
    (fun s => decide (s.dv = { a1 with dstate := .idle, tMain := none, tSafe := none })) = true := by decide
/-- A15, in the running engine of A1. -/
theorem test_cancelDither_running : nextIs (exec .cancelDither { live with dv := a1 })
    (fun s => decide (s.result = .none ∧ s.dv.coarse = 2 ∧ s.dv.fine = 1 ∧ s.dv.div = 1003 ∧ s.dv.dstate = .idle ∧
      s.dv.tMain = none ∧ s.dv.tSafe = none ∧ s.mode = live.mode)) = true := by decide
/-- A18. -/
theorem test_loadCal : nextIs (exec (.loadCal (.finite (mkRat (-16) 5)) none) { stopped with agent := .host })
    (fun s => decide (s.dv = { stopped.dv with calTgt := mkRat (-16) 5 })) = true := by decide
/-- A19. -/
theorem test_loadCal_running : nextIs (exec (.loadCal (.finite 1) (some 10000)) { live with agent := .host })
    (fun s => decide (s.dv = live.dv)) = true := by decide
/-- G1. -/
theorem test_start : nextIs (exec (.start .run) stopped)
    (fun s => decide (s.txq = [0x0000BFFC#32, 0x00000800#32, 0xBFFC0000#32, 0x00000001#32, 0x00000000#32, 0x0002BFFC#32,
      0x00000000#32, 0xBFFC0000#32] ∧ s.echoq = [0, 1, 2] ∧ s.syncph = false ∧ txTime s = ⟨0, 0, 0, 3⟩ ∧ s.mode = .run)) = true := by
  decide
/-- G4. -/
theorem test_start_refuses : nextIs (exec (.start (.jamming 65)) stopped)
    (fun s => decide (s.result = .bool false ∧ s.mode = .halted)) = true := by decide
/-- G9, both halves. -/
theorem test_stop : nextIs (exec .stop live) (fun s => decide (s.stopReq = true ∧ s.mode = .run)) = true ∧
    nextIs (perform .stopCheck { live with stopReq := true, dv := a1 })
      (fun s => decide (s.mode = .halted ∧ s.lineOut = .low ∧ s.dv.dstate = .idle ∧ s.dv.tMain = none)) = true := by decide
/-- G6. -/
theorem test_setMode : nextIs (exec (.setMode (.jamming 64)) live) (fun s => decide (s.mode = .jamming 64)) = true := by decide
/-- G8. -/
theorem test_setMode_halted : nextIs (exec (.setMode .run) stopped)
    (fun s => decide (s.result = .bool false ∧ s.mode = .halted)) = true := by decide
/-- G16. -/
theorem test_acquire : nextIs (exec (.acquire .tx) { live with agent := .ui }) (fun s => decide (s.txLock = some .ui)) = true ∧
    nextIs (exec (.nextFrame .tx) { live with txLock := some .ui }) (fun s => decide (s.result = .held ∧ s.tx = live.tx)) = true := by
  decide
/-- 44_engine_control.md R254: a second ACQUIRE by the holder is refused. -/
theorem test_acquire_twice : refusedAs (exec (.acquire .tx) { live with txLock := some .rt }) (.alreadyHeld .tx) = true := by
  decide
/-- 44_engine_control.md R254: RELEASE by another agent than the holder is refused. -/
theorem test_release : nextIs (exec (.release .rx) { live with rxLock := some .rt }) (fun s => decide (s.rxLock = none)) = true ∧
    refusedAs (exec (.release .rx) { live with rxLock := some .ui }) (.notHeld .rx) = true := by decide
/-- G11. -/
theorem test_jamLoad : nextIs (exec (.jamLoad 1) (rxAt (txAt live .r2997 true 0 0 0 0) .r2997 true 0 0 59 29))
    (fun s => decide (txTime s = ⟨0, 1, 0, 2⟩)) = true := by decide
/-- G14. -/
theorem test_jamLoad_rejects : nextIs (exec (.jamLoad 0) (rxAt (txAt live .r25 false 0 0 0 0) .r30 false 0 0 0 25))
    (fun s => decide (s.events = [.loadReject] ∧ s.tx = fileAt .r25 false 0 0 0 0)) = true := by decide
/-- 41_ltc_encoder.md R178. -/
theorem test_lineTxPop : nextIs (exec .lineTxPop { live with agent := .lineTx, txq := [5, 6] })
    (fun s => decide (s.result = .word 5 ∧ s.txq = [6] ∧ s.lineWords = [5])) = true := by decide
/-- 60_exceptions.md R273. -/
theorem test_lineTxPop_underflow : nextIs (exec .lineTxPop { live with agent := .lineTx })
    (fun s => decide (s.events = [.underflow] ∧ s.mode = .halted ∧ s.stopReq = true ∧ s.st.underflow = true)) = true := by decide
/-- V19. -/
theorem test_lineRxPush : nextIs (exec (.lineRxPush 0x12345678#32) { live with agent := .lineRx, rxq := [1, 2, 3, 4, 5, 6, 7, 8] })
    (fun s => decide (s.events = [.rxOverflow] ∧ s.rxq.length = 8 ∧ s.st.rxOvf = true)) = true := by decide

/-- 60_exceptions.md R284: LINE_RX is disabled while the engine is stopped. -/
theorem test_lineRxPush_stopped : nextIs (exec (.lineRxPush 1) { stopped with agent := .lineRx })
    (fun s => decide (s.result = .held ∧ s.rxq = [])) = true := by decide

/-! ### Pseudo-operations (30_encoding.md R114) -/

/-- Program P1, the last two of rows 4 to 28, by HOST. -/
theorem test_stepCount : nextIs (perform (.stepCount .tx 2) { txAt stopped .r25 false 10 0 0 23 with agent := .host })
    (fun s => decide (txTime s = ⟨10, 0, 1, 0⟩)) = true := by decide

/-- A count of 0 is no operation. -/
theorem test_prevFrameCount : nextIs (perform (.prevFrameCount .tx 0) live) (fun s => decide (s.tx = live.tx)) = true ∧
    nextIs (perform (.prevFrameCount .tx 2) (txAt stopped .r25 false 10 0 1 1)) (fun s => decide (txTime s = ⟨10, 0, 0, 24⟩)) = true := by
  decide

theorem test_snapshot : (PseudoOp.snapshot .tx [.toRaw .tx]).expand = [.op .op [0x33#8, 0#8], .op .op [0x05#8, 0#8],
    .op .op [0x34#8, 0#8]] := by decide

/-! ### Witnesses: for each obligation with hypotheses, a state and operands that meet them, clause by clause -/

/-- One turn of an agent, with its act at the port. -/
def atPort (s : State) (a : Agent) (act : Act) : State :=
  { s with port := [⟨a, act⟩], sched := [⟨a, 1, [], none, []⟩] }

theorem witness_DecodeOfEncode : (Instr.loadTc .rx (2 ^ 32 - 1) (2 ^ 32 - 1) (2 ^ 32 - 1) (2 ^ 32 - 1)).wf = true ∧
    (Instr.start (.notAMode 4)).wf = true ∧ (Instr.microAdjust (.finite (mkRat 1 (2 ^ 64))) (some (-(2 ^ 64 - 1)))).wf = true := by
  decide

theorem witness_DecodedIsWellFormed : decode .op [0x03#8, 0#8, 7#8] = some (.nextFrame .tx, [7#8]) ∧
    decode .x0 [0xFC#8, 0xBF#8, 0#8, 0#8] = some (.p3X0 0, []) := by decide

theorem witness_UnlistedOperationsRefused : (0x0B#8 : Byte) ∉ [0x01#8, 0x02#8, 0x03#8, 0x04#8, 0x05#8, 0x06#8, 0x07#8, 0x08#8,
      0x09#8, 0x0A#8, 0x10#8, 0x11#8, 0x18#8, 0x19#8, 0x1A#8, 0x1B#8, 0x20#8, 0x21#8, 0x22#8, 0x23#8, 0x24#8, 0x30#8, 0x31#8,
      0x32#8, 0x33#8, 0x34#8, 0x35#8, 0x40#8, 0x41#8] ∧
    (atPort stopped .rt (.op .op [0x0B#8])).sched = [⟨.rt, 1, [], none, []⟩] ∧
    (atPort stopped .rt (.op .op [0x0B#8])).inProgress = none ∧
    takeFirst .rt (atPort stopped .rt (.op .op [0x0B#8])).port = some (⟨.rt, .op .op [0x0B#8]⟩, []) := by decide

theorem witness_StepRunsDecoded : stopped.sched = [] ∧
    (atPort stopped .rt .poll).sched = [⟨.rt, 1, [], none, []⟩] ∧ takeFirst .ui (atPort stopped .rt .poll).port = none ∧
    takeFirst .rt (atPort stopped .rt (.op .op [0x11#8])).port = some (⟨.rt, .op .op [0x11#8]⟩, []) ∧
    decode .op [0x11#8] = some (.txFrame, []) ∧ Agent.rt ≠ Agent.ui ∧
    takeFirst .rt [⟨.ui, .echoPop⟩, ⟨.rt, .op .op [0x03#8, 0#8]⟩] = some (⟨.rt, .op .op [0x03#8, 0#8]⟩, [⟨.ui, .echoPop⟩]) ∧
    decode .op [0x03#8, 0#8] = some (.nextFrame .tx, []) ∧
    nextIs (exec (.nextFrame .tx) { live with agent := .rt }) (fun _ => true) = true ∧
    (atPort stopped .rt .poll).inProgress = none ∧ ({ live with inProgress := some .rt } : State).inProgress ≠ some .ui := by decide

/-- RT's NEXT_FRAME of 00:59:59:29 waits at the port, and UI's READ_RAW_STABLE beside it; with and without the NEXT_FRAME found
in progress already. -/
def beside (progress : Option Agent) (t : Turn) : State :=
  { txAt live .r30 false 0 59 59 29 with
    inProgress := progress, port := [⟨.rt, .op .op [0x03#8, 0#8]⟩, ⟨.ui, .op .op [0x0A#8, 0#8]⟩], sched := [t] }

theorem witness_ReadsSeeCommittedOperations :
    nextIs (step (beside none ⟨.ui, 0, [], some .rt, []⟩)) (fun s => decide (s.inProgress = some .rt)) = true ∧
    takeFirst .rt (beside (some .rt) ⟨.ui, 1, [], none, []⟩).port =
      some (⟨.rt, .op .op [0x03#8, 0#8]⟩, [⟨.ui, .op .op [0x0A#8, 0#8]⟩]) ∧
    (Act.op .op [0x03#8, 0#8]) ≠ .rebuild ∧
    nextIs (perform (.op .op [0x03#8, 0#8]) { beside (some .rt) ⟨.ui, 1, [], none, []⟩ with agent := .rt, between := [], tears := [] })
      (fun d => decide (d.tx.rawFields ≠ (beside (some .rt) ⟨.ui, 1, [], none, []⟩).tx.rawFields)) = true ∧
    nextIs (step (beside (some .rt) ⟨.ui, 1, [], none, []⟩)) (fun _ => true) = true ∧
    nextIs (step (beside (some .rt) ⟨.rt, 1, [], none, []⟩)) (fun _ => true) = true := by decide

theorem witness_HeldOperationStaysAtPort : (atPort stopped .rt (.op .op [0x11#8])).sched = [⟨.rt, 1, [], none, []⟩] ∧
    nextIs (step (atPort stopped .rt (.op .op [0x11#8]))) (fun s => decide (s.result = .held)) = true ∧
    nextIs (step (atPort { live with rxq := [1, 2], rxLock := some .ui } .rt .poll))
      (fun s => decide (s.result = .held ∧ s.rxHeld = some (1, 2))) = true := by decide

theorem witness_BlockedOperationsHold :
    (permits (.nextFrame .tx) { live with txLock := some .ui } = true ∧
      ({ live with txLock := some .ui } : State).canLock (fileLock .tx) = false ∧ permits .txFrame live = true) ∧
    (permits .rxPoll { live with rxLock := some .ui, rxHeld := some (1, 2) } = true ∧
      ({ live with rxLock := some .ui, rxHeld := some (1, 2) } : State).canLock .rx = false) ∧
    (permits .cancelDither { stopped with divLock := some .host } = true ∧
      ({ stopped with divLock := some .host } : State).canLock .div = false) ∧
    (permits (.microAdjust (.finite 50) none) { live with stopReq := true } = true ∧ (50 : Rat) ≤ live.par.calMax ∧
      -live.par.calMax ≤ 50 ∧ (0 : Int) < (none : Option Int).getD live.dv.period ∧ running live.mode = true) ∧
    (permits (.loadCal (.finite (-50)) (some 1)) { stopped with agent := .host, divLock := some .rt } = true ∧
      -stopped.par.calMax ≤ -50 ∧ (0 : Int) < (some 1).getD stopped.dv.period ∧
      ({ stopped with agent := .host, divLock := some .rt } : State).canLock .div = false) ∧
    (permits (.start (.jamming 64)) { stopped with txLock := some .ui } = true ∧ 64 ≤ stopped.par.jamMax ∧
      ({ stopped with txLock := some .ui } : State).canLock .tx = false ∧
      ({ stopped with divLock := some .host } : State).canLock .div = false) ∧
    (permits .txFrame { live with txq := [1, 2, 3, 4, 5, 6] } = true ∧ live.syncph.toNat = 1 ∧ 8 < 6 + 2 + 1) ∧
    (permits .rxPoll stopped = true ∧ stopped.rxHeld = none ∧ running stopped.mode = false) ∧
    (permits .lineTxPop { stopped with agent := .lineTx } = true ∧ permits (.lineRxPush 1) { stopped with agent := .lineRx } = true ∧
      running stopped.mode = false) ∧
    (permits .mainFire { live with agent := .timer, dv := a1 } = true ∧ a1.tMain = some 2500 ∧ live.now < 2500) ∧
    (permits .safeFire { live with agent := .timer, dv := a1 } = true ∧ a1.tSafe = some 2507 ∧ live.now < 2507) := by decide

theorem witness_AgentsAreRefused : (Instr.lineTxPop.form = .op ∧ permits .lineTxPop live = false) ∧
    ({ live with agent := .lineTx } : State).agent = .lineTx ∧ ({ live with agent := .lineRx } : State).agent = .lineRx ∧
    ({ live with agent := .timer } : State).agent = .timer ∧ live.agent = .rt ∧
    ({ live with agent := .ui } : State).agent = .ui ∧ ({ stopped with agent := .host } : State).agent = .host ∧
    permits (.start .run) { stopped with agent := .host } = true ∧ permits (.start .run) { live with agent := .host } = false := by
  decide

theorem witness_RateTables : params.fam25Includes2498 = false ∧
    ({ params with fam25Includes2498 := true } : Params).fam25Includes2498 = true := by decide

theorem witness_EncodedFieldPositions : (fileAt .r25 false 23 59 59 24).time.Legal (framesPerSecond .r25) ∧
    fam25 params .r25 = true ∧ fam25 params .r2498 = false := by decide

theorem witness_CodecRoundTrip :
    (TxLegal { stopped with tx := e18 .r30 } ∧ (e18 .r30).ff.toNat < framesPerSecond stopped.rx.fps ∧ stopped.agent = .rt ∧
      stopped.canLock .rx = true ∧ fam25 params .r30 = fam25 params stopped.rx.fps) ∧
    (TxLegal { stopped with tx := e18 .r25 } ∧ fam25 params .r30 = false ∧ fam25 params .r25 = true) ∧
    (TxLegal { rxAt stopped .r25 false 0 0 0 0 with tx := e18 .r30 } ∧ (e18 .r30).ff.toNat < framesPerSecond .r25) := by decide

theorem witness_SetFpsDfAcceptsOrRejects :
    (permits (.setFpsDf .tx 5 true) stopped = true ∧ stopped.canLock (fileLock .tx) = true ∧ (5 : BitVec 3) = rateCode .r2398) ∧
    (permits (.setFpsDf .rx 2 false) stopped = true ∧ stopped.canLock (fileLock .rx) = true ∧ (2 : BitVec 3) = rateCode .r25) ∧
    (permits (.setFpsDf .tx 7 false) stopped = true ∧ permits (.setFpsDf .tx 0 true) stopped = true ∧
      ((0 : BitVec 3) ≠ 1 ∧ (0 : BitVec 3) ≠ 5)) := by decide

/-- The hypotheses of LoadTcStoresOrRejects, and a value on each side of its test, at the edge of the rate and of the skip. -/
theorem witness_LoadTcStoresOrRejects :
    permits (.loadTc .tx 23 59 59 29) stopped = true ∧ stopped.canLock (fileLock .tx) = true ∧
    29 < framesPerSecond (stopped.tc .tx).fps ∧ ¬30 < framesPerSecond (stopped.tc .tx).fps ∧
    ((txAt stopped .r2997 true 0 0 0 0).tc .tx).df = true ∧ (11 % 10 ≠ 0 ∧ 10 % 10 = 0) := by decide

theorem witness_NextFrameAdvances : permits (.nextFrame .rx) stopped = true ∧ stopped.canLock (fileLock .rx) = true := by decide

theorem witness_PrevFrameRetreats : permits (.prevFrame .tx) { stopped with txLock := some .rt } = true ∧
    ({ stopped with txLock := some .rt } : State).canLock (fileLock .tx) = true := by decide

theorem witness_FrameStepsInvertAndRepeat : (fileAt .r2997 true 0 1 0 2).Loadable (fileAt .r2997 true 0 1 0 2).time ∧
    permits (.nextFrame .tx) { stopped with agent := .host } = true ∧
    ({ stopped with agent := .host } : State).canLock (fileLock .tx) = true ∧ permits (.prevFrame .rx) stopped = true ∧
    ({ stopped with rxLock := some .ui } : State).canLock (fileLock .rx) = false ∧
    permits (.nextFrame .tx) { live with agent := .host } = false := by decide

theorem witness_DayIsOneCycle : (fileAt .r2997 true 23 59 59 29).Loadable (fileAt .r2997 true 23 59 59 29).time := by decide

theorem witness_SerialisedForms : permits (.toRaw .tx) { stopped with agent := .ui } = true ∧
    permits (.toAscii .tx) { stopped with agent := .ui } = true ∧
    ({ stopped with agent := .ui } : State).canLock (fileLock .tx) = true := by decide

theorem witness_FromAsciiLoadsOrRejects : permits (.fromAscii .tx []) stopped = true ∧
    permits (.fromAscii .tx [0x30#8, 0x39#8, 0x3A#8, 0x30#8, 0x30#8, 0x3A#8, 0x30#8, 0x30#8, 0x2E#8, 0x30#8, 0x39#8]) stopped =
      true ∧ stopped.canLock (fileLock .tx) = true := by decide

theorem witness_UserBitsAndFlagsAreStored : permits (.setUb .tx 0 0 0 0 0 0 0 15) stopped = true ∧
    permits (.setFlags .rx true true true true) stopped = true ∧ stopped.canLock (fileLock .tx) = true ∧
    stopped.canLock (fileLock .rx) = true := by decide

/-- Two reads that agree, two that do not, and none. -/
theorem witness_StableReadDeliversAgreement : permits (.readRawStable .tx) { live with agent := .ui, txLock := some .rt } = true ∧
    live.tears = [] ∧ live.newRaw .tx = (live.tc .tx).rawFields ∧
    (tornFields RawFields.reset { RawFields.reset with hh := 1 } ⟨false, true, false, false, false⟩).word ≠
      (tornFields RawFields.reset { RawFields.reset with hh := 1 } ⟨true, false, true, true, true⟩).word := by decide

theorem witness_EncPacketDeliversWords : permits (.encPacket true) stopped = true ∧ stopped.canLock .tx = true := by decide

/-- Also of TxFrameSurvivesInterleaving: TXQ as full as TX_FRAME allows, with a sync word pending. -/
theorem witness_TxFramePushesThePacket : permits .txFrame { live with txq := [1, 2, 3, 4, 5] } = true ∧
    running live.mode = true ∧ live.stopReq = false ∧ [1, 2, 3, 4, 5].length + 2 + live.syncph.toNat ≤ 8 ∧
    live.canLock .tx = true ∧ live.between = [] := by decide

/-- The engine goes on in one run, and takes UNDERFLOW in another. -/
theorem witness_TxFrameSurvivesInterleaving : permits .txFrame { live with between := [[.pop], [.pop, .push 1]] } = true ∧
    running live.mode = true ∧ live.stopReq = false ∧ [1, 2, 3, 4, 5].length + 2 + live.syncph.toNat ≤ 8 ∧
    live.canLock .tx = true ∧
    nextIs (exec .txFrame { live with txq := [1, 2], between := [[.pop], [.pop, .push 1]] }) (fun s => running s.mode) = true ∧
    nextIs (exec .txFrame { live with between := [[], [.pop, .pop]] }) (fun s => !running s.mode) = true := by decide

/-- Two TX_FRAMEs with a LINE_TX_POP between them. -/
theorem witness_TxFramesPushTheStream : ∃ s', Transmits [true, false, true] live s' :=
  ⟨_, _, rfl, by decide, _, _, rfl, rfl, _, rfl, by decide, rfl⟩

theorem witness_LineTxPopOrUnderflow : permits .lineTxPop { live with agent := .lineTx } = true ∧ running live.mode = true ∧
    ({ live with txq := [1] } : State).txq = [1] ∧ live.txq = [] ∧ running stopped.mode = false ∧
    nextIs (exec .lineTxPop { stopped with agent := .lineTx, txq := [1] }) (fun s => decide (s.txq = [1])) = true := by decide

theorem witness_UnderflowEntryThenCancel : ({ live with agent := .lineTx } : State).agent = .lineTx ∧
    running live.mode = true ∧ live.txq = [] ∧ live.divLock = none ∧ ({ live with divLock := some .rt } : State).divLock = some .rt := by
  decide

/-- The hypotheses of DecPacketCommitsOrRejects, with a frame number on each side of its test. -/
theorem witness_DecPacketCommitsOrRejects : permits (.decPacket 0x00000209#32 0) stopped = true ∧ stopped.canLock .rx = true ∧
    frameOk 0x00000209#32 0 .r30 = true ∧ frameOk 0x00000300#32 0 .r30 = false := by decide

theorem witness_SyncFieldsAreChecked : permits (.decPacket3 0x0004BFFC#32 0 0xBFFC0001#32) stopped = true ∧
    stopped.canLock .rx = true ∧ lowHalf 0x0004BFFC#32 = 0xBFFC#16 ∧ highHalf 0xBFFC0001#32 = 0xBFFC#16 ∧
    highHalf 0xBFFD0001#32 ≠ 0xBFFC#16 ∧ permits (.decFrame80 0 0 0xBFFC#16) stopped = true ∧ (0x3FFD#16 : Half) ≠ 0xBFFC#16 := by
  decide

theorem witness_DecodedTimeFits : frameOk 0x00000209#32 0 .r30 = true := by decide

theorem witness_ParityCatchesOneFlip : (0 < 64 ∧ 63 < 64) ∧ parityOk 0x08000000#32 0 = true := by decide

theorem witness_RxPollDecodesOnePacket : permits .rxPoll live = true ∧ live.rxHeld = none ∧ running live.mode = true ∧
    live.stopReq = false ∧ ({ live with rxq := [1] } : State).rxq.length < 2 ∧
    ({ live with rxq := [1, 2] } : State).rxq = 1 :: 2 :: [] ∧ live.canLock .rx = true ∧ live.between = [] ∧
    ({ live with rxLock := some .ui } : State).canLock .rx = false ∧
    nextIs (exec .rxPoll { live with rxq := [1, 2], between := [[.push 3]] })
      (fun s => decide (ReceptionClaimed s ∧ s.rxq = [3])) = true ∧
    ({ stopped with rxHeld := some (1, 2) } : State).rxHeld = some (1, 2) ∧ permits .rxPoll stopped = true := by decide

theorem witness_LineRxPushOrOverflow : permits (.lineRxPush 1) { live with agent := .lineRx } = true ∧
    running stopped.mode = false ∧ running live.mode ≠ false ∧
    [1, 2, 3, 4, 5, 6, 7].length < stopped.par.rxqDepth ∧ ¬[1, 2, 3, 4, 5, 6, 7, 8].length < stopped.par.rxqDepth := by decide

theorem witness_CalibrationAndDurationsSplit : 0 < 1 := by decide

/-- Also a cycle with nothing to dither, and a cycle in flight. -/
theorem witness_MicroAdjustSetsTheCycle : permits (.microAdjust (.finite 50) (some 1)) live = true ∧ running live.mode = true ∧
    live.stopReq = false ∧ live.canLock .div = true ∧ -live.par.calMax ≤ 50 ∧ (50 : Rat) ≤ live.par.calMax ∧
    (0 : Int) < (some 1).getD live.dv.period ∧ live.dv.dstate = .idle ∧ onTime .floor 1 50 = 0 ∧
    onTime .floor 10000 (mkRat 9 4) = 2500 ∧
    permits (.microAdjust (.finite (mkRat (-1) 2)) none) { live with dv := a1 } = true ∧ -live.par.calMax ≤ mkRat (-1) 2 ∧
    mkRat (-1) 2 ≤ live.par.calMax ∧ (0 : Int) < (none : Option Int).getD a1.period ∧ a1.dstate ≠ .idle := by decide

theorem witness_CancelDitherDropsTimers : permits .cancelDither stopped = true ∧ permits .cancelDither live = true ∧
    permits .cancelDither { stopped with agent := .timer, st := { Status.reset with underflow := true } } = true ∧
    stopped.canLock .div = true ∧ permits (.microAdjust (.finite (-50)) (some 1)) stopped = true ∧ running stopped.mode = false ∧
    -stopped.par.calMax ≤ -50 ∧ (-50 : Rat) ≤ stopped.par.calMax ∧ (0 : Int) < (some 1).getD stopped.dv.period := by decide

theorem witness_CalRangeIsRefused : permits (.microAdjust (.finite (mkRat 101 2)) none) live = true ∧
    live.par.calMax < mkRat 101 2 ∧ (some 0).getD (live.dv.period : Int) ≤ 0 ∧
    permits (.loadCal .nan none) { stopped with agent := .host } = true ∧ CalArg.nan ≠ .finite 0 ∧
    permits (.loadCal (.finite 1) (some 0)) { stopped with agent := .host } = true ∧ (0 : Int) ≤ 0 := by decide

theorem witness_MainFireMovesThePhase : permits .mainFire { live with agent := .timer, now := 2500, dv := a1 } = true ∧
    a1.dstate = .on ∧ a1.tMain = some 2500 ∧ 2500 ≤ 2500 ∧ live.canLock .div = true ∧
    offTime .floor a1.periodAct a1.calAct = 7500 ∧
    permits .mainFire { live with agent := .timer, now := 10000, dv := a12 } = true ∧
    live.dv.tMain = none ∧ a12.dstate = .off ∧ a12.tMain = some 10000 ∧ 10000 ≤ 10000 := by decide

theorem witness_SafeFireReapplies : permits .safeFire { live with agent := .timer, now := 2507, dv := a1 } = true ∧
    live.canLock .div = true ∧ CalInRange { live with dv := a1 } ∧ live.dv.tSafe = none ∧ a1.tSafe = some 2507 ∧
    2507 ≤ 2507 := by decide

theorem witness_LoadCalStoresTarget : permits (.loadCal (.finite 50) none) { stopped with agent := .host } = true ∧
    -stopped.par.calMax ≤ 50 ∧ (50 : Rat) ≤ stopped.par.calMax ∧ (0 : Int) < (none : Option Int).getD stopped.dv.period ∧ running stopped.mode = false ∧
    ({ stopped with agent := .host } : State).canLock .div = true ∧
    permits (.loadCal (.finite 50) (some 1)) { live with agent := .host } = true ∧ running live.mode = true := by decide

theorem witness_MeanDividerIsFractional : 0 < a1.period ∧ a1.coarse = coarseOf .up a1.calTgt := by decide

theorem witness_StartBeginsSession : permits (.start (.jamming 64)) stopped = true ∧ stopped.mode = .halted ∧
    stopped.canLock .tx = true ∧ stopped.canLock .div = true ∧ CalInRange stopped ∧ (1 ≤ 64 ∧ 64 ≤ stopped.par.jamMax) := by
  decide

theorem witness_ModeOperandsAreChecked : permits (.start .run) live = true ∧ running live.mode = true ∧
    permits (.start (.jamming 0)) stopped = true ∧ ¬(1 ≤ 0 ∧ 0 ≤ stopped.par.jamMax) ∧ ¬(1 ≤ 65 ∧ 65 ≤ stopped.par.jamMax) ∧
    permits (.setMode (.notAMode 4)) live = true := by decide

theorem witness_StopHaltsInTwoHalves : permits .stop live = true ∧ live.agent = .rt ∧
    ({ live with stopReq := true } : State).stopReq = true ∧ live.canLock .div = true := by decide

theorem witness_SetModeMovesBetweenRunningModes : permits (.setMode (.jamming 1)) live = true ∧ running live.mode = true ∧
    (1 ≤ 1 ∧ 1 ≤ live.par.jamMax) ∧ permits (.setMode .run) stopped = true ∧ stopped.mode = .halted ∧
    permits (.setMode (.jamming 65)) live = true ∧ ¬(1 ≤ 65 ∧ 65 ≤ live.par.jamMax) := by decide

theorem witness_LocksAreExclusive : permits (.acquire .div) live = true ∧ live.holder .div = none ∧
    ({ live with txLock := some .ui } : State).holder .tx = some .ui ∧ Agent.ui ≠ live.agent ∧
    ({ live with txLock := some .rt } : State).holder .tx = some live.agent ∧ permits (.release .tx) live = true ∧
    live.holder .tx ≠ some live.agent := by decide

/-- The hypotheses of JamLoadCopiesRxOrRejects, and a value on each side of its test. -/
theorem witness_JamLoadCopiesRxOrRejects : permits (.jamLoad 0) live = true ∧ live.canLock .rx = true ∧ live.canLock .tx = true ∧
    JamLegal (fileAt .r30 false 23 59 59 29) live.tx ∧ ¬JamLegal (fileAt .r30 false 0 0 85 0) live.tx := by decide

theorem witness_EchoPopTakesOldest : ({ live with agent := .ui } : State).agent = .ui ∧
    ({ live with echoq := [1] } : State).echoq = [1] ∧ live.echoq = [] ∧ live.agent ≠ .ui := by decide

theorem witness_RtLoopPollsAndRefills : live.agent = .rt ∧ running live.mode = true ∧ live.stopReq = false ∧
    [1, 2, 3, 4, 5].length + live.syncph.toNat < 7 ∧ 7 ≤ [1, 2, 3, 4, 5, 6].length + live.syncph.toNat ∧
    live.canLock .tx = true ∧ running stopped.mode = false ∧ stopped.rxHeld = none ∧
    ({ stopped with rxHeld := some (1, 2) } : State).rxHeld.isSome = true ∧ ({ live with agent := .ui } : State).agent ≠ .rt := by
  decide

theorem witness_RebuildRestoresReset : ({ stopped with agent := .host } : State).agent = .host ∧ running stopped.mode = false ∧
    stopped.agent ≠ .host ∧ running live.mode = true := by decide

/-- The invariant holds of a running block, in the middle of a cycle, with a fine offset exactly in the on phase. -/
theorem witness_StepKeepsInvariant : Inv { live with dv := a1 } ∧ (∃ s', step { live with dv := a1 } = .next s') ∧
    FineFollowsPhase { live with dv := a1 } where
  left :=
    { params := by decide, queues := by decide, tx := by decide, rx := by decide, mode := by decide, divider := by decide,
      timers := by decide, halted := by decide, stopped := by decide, cal := by decide, line := by decide, locks := by decide }
  right := ⟨⟨_, rfl⟩, by decide⟩

theorem witness_OnlyStartLeavesHalted :
    nextIs (exec (.start .run) { stopped with stopReq := true }) (fun s => running s.mode && !s.stopReq) = true ∧
    running stopped.mode = false ∧
    nextIs (exec .txFrame { live with syncph := false, between := [[], [.pop, .pop]] }) (fun s => !running s.mode) = true ∧
    running live.mode = true ∧ nextIs (exec (.start .run) { stopped with st := { Status.reset with underflow := true } })
      (fun s => !s.st.underflow) = true ∧
    nextIs (perform .stopCheck { live with stopReq := true }) (fun s => !running s.mode) = true ∧
    nextIs (perform .refill { live with between := [[.pop]] }) (fun s => !running s.mode) = true ∧
    nextIs (perform .rebuild { stopped with agent := .host, stopReq := true, st := { Status.reset with underflow := true } })
      (fun s => !s.stopReq && !s.st.underflow) = true := by decide

theorem witness_WritersOfEachRegister :
    nextIs (exec (.setFpsDf .rx 2 false) stopped) (fun s => decide ((s.tc .rx).fps ≠ (stopped.tc .rx).fps)) = true ∧
    nextIs (exec .txFrame live) (fun s => decide (s.tx ≠ live.tx ∧ s.syncph ≠ live.syncph ∧ s.echoq ≠ live.echoq)) = true ∧
    nextIs (exec .cancelDither { stopped with dv := a1 }) (fun s => decide (s.dv ≠ a1)) = true ∧
    nextIs (exec (.decPacket 0x45362917#32 0x85726B54#32) stopped)
      (fun s => decide ((s.tc .rx).uf1 ≠ (stopped.tc .rx).uf1 ∧ (s.tc .rx).clk ≠ (stopped.tc .rx).clk ∧ s.st.rxOk ≠ false)) = true ∧
    nextIs (exec (.acquire .tx) live) (fun s => decide (s.holder .tx ≠ live.holder .tx)) = true ∧
    nextIs (perform .poll live) (fun _ => true) = true ∧ nextIs (perform .refill live) (fun _ => true) = true ∧
    nextIs (perform .echoPop { live with agent := .ui }) (fun _ => true) = true ∧
    nextIs (perform .stopCheck live) (fun _ => true) = true ∧
    nextIs (perform (.stepCount .rx 3) live) (fun s => decide ((s.tc .rx).ff ≠ (live.tc .rx).ff)) = true ∧
    nextIs (perform .rebuild { stopped with agent := .host }) (fun _ => true) = true := by decide

end Sys2Proof.Tests
end

section
/-! PROOF. Scope (00_scope.md): what holds an operation and what a held one leaves (R9), and the step as the decoded operation
of the scheduled agent (R11). -/

namespace Sys2Proof.Machine

/-! ### A body does not answer `held`

Only `issue` answers `held`, and RX_POLL in its middle (42_ltc_decoder.md R197): every other body delivers a result of its own
or leaves the one it finds. -/

/-- LINE steps that touch neither the line nor the engine leave all but RXQ, its overflow flag, what they deliver and what they
raise. -/
theorem LineFrame.eq_of_engine_kept {s s' : State} (f : LineFrame s s') (hm : s'.mode = s.mode) (hr : s'.stopReq = s.stopReq)
    (ho : s'.lineOut = s.lineOut) (hq : s'.txq = s.txq) (hl : s'.lineWords = s.lineWords)
    (hu : s'.st.underflow = s.st.underflow) : s' = { s with
      rxq := s'.rxq, result := s'.result, events := s'.events, st := { s.st with rxOvf := s'.st.rxOvf } } := by
  dsimp only
  rw [← f.tx, ← f.rx, ← f.txLock, ← f.rxLock, ← f.divLock, ← hm, ← hr, ← f.syncph, ← f.dv, ← hq, ← f.echoq, ← f.rxHeld,
    ← ho, ← hl, ← f.now, ← f.par, ← f.agent, ← f.draws, ← f.between, ← f.tears, ← f.newTx, ← f.newRx, ← f.inProgress,
    ← f.port, ← f.sched, ← hu, ← f.rxOk, ← f.rxPerr, ← f.rxSyncErr, ← f.safetyCount]

section Bodies

variable {s : State}

theorem State.setFpsDf_result_ne_held (t : File) (code : BitVec 3) (df : Bool) : (s.setFpsDf t code df).result ≠ .held := by
  unfold State.setFpsDf
  split <;> simp

theorem State.loadTime_result_ne_held (t : File) (v : Time) : (s.loadTime t v).result ≠ .held := by
  unfold State.loadTime
  split <;> simp

theorem State.fromAscii_result_ne_held (t : File) (str : List Byte) : (s.fromAscii t str).result ≠ .held := by
  unfold State.fromAscii
  split
  · exact State.loadTime_result_ne_held t _
  · simp

theorem State.decPacket_result_ne_held (w0 w1 : Word) : (s.decPacket w0 w1).result ≠ .held := by
  simp [decPacket_eq]

theorem State.decPacket3_result_ne_held (x0 x1 x2 : Word) : (s.decPacket3 x0 x1 x2).result ≠ .held := by
  unfold State.decPacket3
  split
  · exact State.decPacket_result_ne_held _ _
  · simp [State.syncReject]

theorem State.decFrame80_result_ne_held (w0 w1 : Word) (s16 : Half) : (s.decFrame80 w0 w1 s16).result ≠ .held := by
  unfold State.decFrame80
  split
  · exact State.decPacket_result_ne_held _ _
  · simp [State.syncReject]

theorem State.start_result_ne_held (m : ModeArg) : (s.start m).result ≠ .held := by
  unfold State.start
  split
  · simp
  · split <;> simp [State.startIn]

theorem State.setModeTo_result_ne_held (m : ModeArg) : (s.setModeTo m).result ≠ .held := by
  unfold State.setModeTo
  split
  · split <;> simp
  · simp

theorem State.jamLoad_result_ne_held (k : Nat) : (s.jamLoad k).result ≠ .held := by
  unfold State.jamLoad
  split <;> simp

variable (h : s.result ≠ .held)
include h

theorem State.lineTxPop_result_ne_held : s.lineTxPop.result ≠ .held := by
  unfold State.lineTxPop
  split
  · simp
  · simpa using h

theorem State.lineRxPush_result_ne_held (w : Word) : (s.lineRxPush w).result ≠ .held := by
  unfold State.lineRxPush
  split <;> simpa using h

theorem State.microAdjust_result_ne_held (c : CalArg) (P : Int) : (s.microAdjust c P).result ≠ .held := by
  obtain ⟨-, e⟩ | ⟨_, _, -, ⟨-, e⟩ | ⟨-, e⟩⟩ := microAdjust_cases s c P <;> rw [e] <;> simpa using h

theorem State.mainFire_result_ne_held : s.mainFire.result ≠ .held := by
  unfold State.mainFire
  split
  · exact h
  · simpa using h

theorem State.safeFire_result_ne_held : s.safeFire.result ≠ .held := by
  unfold State.safeFire
  split
  · exact h
  · exact State.microAdjust_result_ne_held (by simpa using h) _ _

theorem State.loadCal_result_ne_held (c : CalArg) (P : Int) : (s.loadCal c P).result ≠ .held := by
  unfold State.loadCal
  split
  · simpa using h
  · split
    · exact h
    · simpa using h

/-- RX_POLL answers `held` only where its DEC_PACKET waits for RX.lock: two words have left RXQ and wait, LINE_RX may have
pushed at its tail, and nothing else has changed (42_ltc_decoder.md R197). -/
theorem State.rxPoll_held (hr : s.rxPoll.result = .held) :
    s.rxHeld = none ∧ s.canLock .rx = false ∧ ∃ w0 w1 q pushed, s.rxq = w0 :: w1 :: q ∧
      s.rxPoll = { s with
        result := .held, events := s.rxPoll.events, rxHeld := some (w0, w1), rxq := q ++ pushed
        st := { s.st with rxOvf := s.rxPoll.st.rxOvf } } := by
  obtain ⟨w0, w1, -, e⟩ | ⟨-, -, e⟩ | ⟨hn, w0, w1, q, s1, pushed, hq, f, m, r, o, x, l, u, -, -, c⟩ := rxPoll_cases s
  · simp [e] at hr
  · exact absurd (e ▸ hr) h
  · obtain ⟨-, e⟩ | ⟨hl, e⟩ := c
    · simp [e] at hr
    · have hs1 := f.eq_of_engine_kept m r o x l u
      refine ⟨hn, hl, w0, w1, q, pushed, hq, ?_⟩
      rw [e, hs1]
      rfl

end Bodies

/-! ### What a held operation leaves -/

theorem issue_result_held {i : Instr} {ready : Bool} {body : State → State} {s s' : State} {o : Out}
    (e : o = issue i ready body s) (h : o = .next s') (hr : s'.result = .held) (hb : (body s.opened).result ≠ .held) :
    s' = s.heldUp := by
  obtain ⟨-, ⟨-, rfl⟩ | ⟨-, rfl⟩⟩ := issue_next (e ▸ h)
  · exact absurd hr hb
  · rfl

/-- Everything an operation can be that is held: one that has no step now, or an RX_POLL held in its middle. -/
theorem exec_held {i : Instr} {s s' : State} (h : exec i s = .next s') (hr : s'.result = .held) :
    s' = s.heldUp ∨ permits .rxPoll s = true ∧ rxPollReady s = true ∧ s' = s.opened.rxPoll := by
  have ho : s.opened.result ≠ .held := by simp
  cases i with
  | rxPoll =>
    obtain ⟨hp, ⟨hy, rfl⟩ | ⟨-, rfl⟩⟩ := issue_next h
    · exact .inr ⟨hp, hy, rfl⟩
    · exact .inl rfl
  | acquire l =>
    obtain ⟨-, ⟨-, rfl⟩ | ⟨-, rfl⟩⟩ := exec_acquire_next h
    · simp at hr
    · exact .inl rfl
  | release l =>
    obtain ⟨-, -, rfl⟩ := exec_release_next h
    simp at hr
  | setFpsDf t code df =>
    exact .inl (issue_result_held (exec_setFpsDf s t code df) h hr (State.setFpsDf_result_ne_held t code df))
  | loadTc t hh mm ss ff =>
    exact .inl (issue_result_held (exec_loadTc s t hh mm ss ff) h hr (State.loadTime_result_ne_held t _))
  | fromAscii t str => exact .inl (issue_result_held (exec_fromAscii s t str) h hr (State.fromAscii_result_ne_held t str))
  | nextFrame t => exact .inl (issue_result_held (exec_nextFrame s t) h hr (by simp))
  | prevFrame t => exact .inl (issue_result_held (exec_prevFrame s t) h hr (by simp))
  | toRaw t => exact .inl (issue_result_held (exec_toRaw s t) h hr (by simp))
  | toAscii t => exact .inl (issue_result_held (exec_toAscii s t) h hr (by simp))
  | setUb t n1 n2 n3 n4 n5 n6 n7 n8 => exact .inl (issue_result_held (exec_setUb s t n1 n2 n3 n4 n5 n6 n7 n8) h hr (by simp))
  | setFlags t cf clk bgf0 bgf2 => exact .inl (issue_result_held (exec_setFlags s t cf clk bgf0 bgf2) h hr (by simp))
  | readRawStable t => exact .inl (issue_result_held (exec_readRawStable s t) h hr (by simp))
  | encPacket b => exact .inl (issue_result_held (exec_encPacket s b) h hr (by simp))
  | txFrame => exact .inl (issue_result_held (exec_txFrame s) h hr (by simp [State.txFrame]))
  | cancelDither => exact .inl (issue_result_held (exec_cancelDither s) h hr (by simp))
  | stop => exact .inl (issue_result_held (exec_stop s) h hr (by simp))
  | decPacket w0 w1 => exact .inl (issue_result_held (exec_decPacket s w0 w1) h hr (State.decPacket_result_ne_held w0 w1))
  | decPacket3 x0 x1 x2 =>
    exact .inl (issue_result_held (exec_decPacket3 s x0 x1 x2) h hr (State.decPacket3_result_ne_held x0 x1 x2))
  | decFrame80 w0 w1 s16 =>
    exact .inl (issue_result_held (exec_decFrame80 s w0 w1 s16) h hr (State.decFrame80_result_ne_held w0 w1 s16))
  | microAdjust c P => exact .inl (issue_result_held (exec_microAdjust s c P) h hr (State.microAdjust_result_ne_held ho c _))
  | mainFire => exact .inl (issue_result_held (exec_mainFire s) h hr (State.mainFire_result_ne_held ho))
  | safeFire => exact .inl (issue_result_held (exec_safeFire s) h hr (State.safeFire_result_ne_held ho))
  | loadCal c P => exact .inl (issue_result_held (exec_loadCal s c P) h hr (State.loadCal_result_ne_held ho c _))
  | start m => exact .inl (issue_result_held (exec_start s m) h hr (State.start_result_ne_held m))
  | setMode m => exact .inl (issue_result_held (exec_setMode s m) h hr (State.setModeTo_result_ne_held m))
  | jamLoad k => exact .inl (issue_result_held (exec_jamLoad s k) h hr (State.jamLoad_result_ne_held k))
  | lineTxPop => exact .inl (issue_result_held (exec_lineTxPop s) h hr (State.lineTxPop_result_ne_held ho))
  | lineRxPush w => exact .inl (issue_result_held (exec_lineRxPush s w) h hr (State.lineRxPush_result_ne_held ho w))
  | ltcW0 | ltcW1 | p3X0 | p3X1 | p3X2 | sync16 | raw32 => cases h

theorem underOneHold_held {i : Instr} {t : File} {n : Nat} {stepped : Timecode} {s s' : State}
    (h : underOneHold i t n stepped s = .next s') (hr : s'.result = .held) : s' = s.heldUp := by
  obtain ⟨-, rfl⟩ | ⟨-, -, ⟨-, rfl⟩ | ⟨-, rfl⟩⟩ := underOneHold_next h
  · simp at hr
  · simp at hr
  · rfl

/-- Everything an act at the port can be that is held. -/
theorem perform_held {act : Act} {s s' : State} (h : perform act s = .next s') (hr : s'.result = .held) :
    s' = s.heldUp ∨ permits .rxPoll s = true ∧ rxPollReady s = true ∧ s' = s.opened.rxPoll := by
  cases act with
  | op form bytes =>
    simp only [perform] at h
    split at h
    · exact exec_held h hr
    · cases h
  | echoPop =>
    simp only [perform, echoPop] at h
    split at h
    · split at h <;> cases h
      · simp at hr
      · exact .inl rfl
    · cases h
  | poll =>
    simp only [perform, poll] at h
    split at h
    · split at h
      · exact exec_held h hr
      · cases h; simp at hr
    · cases h
  | refill =>
    simp only [perform, refill] at h
    split at h
    · split at h
      · exact exec_held h hr
      · cases h; simp at hr
    · cases h
  | stopCheck =>
    simp only [perform, stopCheck] at h
    split at h
    · split at h
      · split at h <;> cases h
        · simp at hr
        · exact .inl rfl
      · cases h; simp at hr
    · cases h
  | stepCount t n => exact .inl (underOneHold_held h hr)
  | prevFrameCount t n => exact .inl (underOneHold_held h hr)
  | rebuild =>
    simp only [perform, rebuild] at h
    split at h <;> cases h
    cases hr

/-! ### One turn (60_exceptions.md R285) -/

theorem step_of_sched_nil {s : State} (h : s.sched = []) : step s = .next s := by simp only [step, h]

theorem step_of_sched_cons {s : State} {t : Turn} {turns : List Turn} (h : s.sched = t :: turns) :
    step s = runTurn t turns s := by simp only [step, h]

theorem State.closeTurn_of_held {after : State} (h : after.result = .held) (before : State) (rest : List Item)
    (progress : Option Agent) :
    after.closeTurn before rest progress = { after with port := before.port, inProgress := before.inProgress } :=
  if_pos h

theorem State.closeTurn_of_done {after : State} (h : after.result ≠ .held) (before : State) (rest : List Item)
    (progress : Option Agent) : after.closeTurn before rest progress = { after with port := rest, inProgress := progress } :=
  if_neg h

@[simp] theorem State.closeTurn_result (after before : State) (rest : List Item) (progress : Option Agent) :
    (after.closeTurn before rest progress).result = after.result := by
  unfold State.closeTurn
  split <;> rfl

section Turns

variable {s : State} {t : Turn} {turns : List Turn} {it : Item} {items : List Item}

theorem runTurn_of_nothing_at_port (h : takeFirst t.agent s.port = none) :
    runTurn t turns s = .next (s.openTurn t turns).opened := by
  simp [runTurn, h]

variable (h : takeFirst t.agent s.port = some (it, items))
include h

theorem runTurn_of_blocked (hm : mayAct (s.openTurn t turns) it.act = false) :
    runTurn t turns s = .next (s.openTurn t turns).heldUp := by
  simp [runTurn, h, hm]

theorem runTurn_of_next {d : State} (hm : mayAct (s.openTurn t turns) it.act = true)
    (hd : perform it.act (s.openTurn t turns) = .next d) :
    runTurn t turns s = .next
      (d.closeTurn (s.openTurn t turns) items (progressAfter (s.openTurn t turns) it.act (writerOf s t))) := by
  simp [runTurn, h, hm, hd]

theorem runTurn_of_refused {e : Refusal} (hm : mayAct (s.openTurn t turns) it.act = true)
    (hd : perform it.act (s.openTurn t turns) = .refused e) : runTurn t turns s = .refused e := by
  simp [runTurn, h, hm, hd]

end Turns

/-- Everything a turn can do when it answers a next state: nothing stands at the port, or the agent's first item waits for
another agent's operation in progress, or it is carried out. -/
theorem runTurn_next {s s' : State} {t : Turn} {turns : List Turn} (h : runTurn t turns s = .next s') :
    (takeFirst t.agent s.port = none ∧ s' = (s.openTurn t turns).opened) ∨
    (∃ it items, takeFirst t.agent s.port = some (it, items) ∧
      (mayAct (s.openTurn t turns) it.act = false ∧ s' = (s.openTurn t turns).heldUp ∨
        mayAct (s.openTurn t turns) it.act = true ∧ ∃ d, perform it.act (s.openTurn t turns) = .next d ∧
          s' = d.closeTurn (s.openTurn t turns) items
            (progressAfter (s.openTurn t turns) it.act (writerOf s t)))) := by
  cases hp : takeFirst t.agent s.port with
  | none =>
    rw [runTurn_of_nothing_at_port hp] at h
    cases h
    exact .inl ⟨rfl, rfl⟩
  | some x =>
    refine .inr ⟨x.1, x.2, rfl, ?_⟩
    cases hm : mayAct (s.openTurn t turns) x.1.act with
    | false =>
      rw [runTurn_of_blocked hp hm] at h
      cases h
      exact .inl ⟨rfl, rfl⟩
    | true =>
      cases hd : perform x.1.act (s.openTurn t turns) with
      | next d =>
        rw [runTurn_of_next hp hm hd] at h
        cases h
        exact .inr ⟨rfl, d, rfl, rfl⟩
      | fault e => cases e
      | refused e =>
        rw [runTurn_of_refused hp hm hd] at h
        cases h

/-! ### A held step (00_scope.md R9) -/

theorem agent_of_permits_rxPoll {s : State} (h : permits .rxPoll s = true) : s.agent = .rt := by
  cases ha : s.agent <;> simp [permits, agentMay, ha, opClass, uiMay, lineTxMay, lineRxMay, timerMay, hostMay] at h ⊢

/-- A lock that cannot be taken is another agent's. -/
theorem holder_of_canLock_false {s : State} {l : Lock} (h : s.canLock l = false) :
    ∃ a, s.holder l = some a ∧ a ≠ s.agent := by
  cases hl : s.holder l with
  | none => simp [State.canLock, hl] at h
  | some a => exact ⟨a, rfl, by simpa [State.canLock, hl] using h⟩

theorem rxPollReady_of_none {s : State} (hn : s.rxHeld = none) (h : rxPollReady s = true) :
    running s.mode = true ∧ s.stopReq = false := by
  simpa [rxPollReady, hn] using h

/-- Everything a step can be that is held: a turn whose operation has no step now, or RT's RX_POLL held in its middle. -/
theorem runTurn_held {s s' : State} {t : Turn} {turns : List Turn} (h : runTurn t turns s = .next s')
    (hr : s'.result = .held) :
    s' = (s.openTurn t turns).heldUp ∨
    permits .rxPoll (s.openTurn t turns) = true ∧ rxPollReady (s.openTurn t turns) = true ∧
      (s.openTurn t turns).opened.rxPoll.result = .held ∧
      s' = { (s.openTurn t turns).opened.rxPoll with port := s.port, inProgress := s.inProgress } := by
  obtain ⟨-, rfl⟩ | ⟨it, items, -, ⟨-, rfl⟩ | ⟨-, d, hd, rfl⟩⟩ := runTurn_next h
  · simp at hr
  · exact .inl rfl
  · rw [State.closeTurn_result] at hr
    rw [State.closeTurn_of_held hr]
    obtain rfl | ⟨hp, hy, rfl⟩ := perform_held hd hr
    · exact .inl rfl
    · exact .inr ⟨hp, hy, hr, rfl⟩

/-- Settles O7: by what an act can be that is held, and by RX_POLL's own hold after its pops. -/
theorem heldOperationStaysAtPort : Obligations.HeldOperationStaysAtPort := by
  unfold Obligations.HeldOperationStaysAtPort
  intro s s' t turns hs h hr
  rw [step_of_sched_cons hs] at h
  obtain rfl | ⟨hp, hy, hd, rfl⟩ := runTurn_held h hr
  · exact .inl rfl
  · right
    obtain ⟨hn, hl, w0, w1, q, pushed, hq, e⟩ := State.rxPoll_held (by simp) hd
    obtain ⟨hrun, hstop⟩ := rxPollReady_of_none (by simpa using hn) hy
    obtain ⟨a, ha, hne⟩ := holder_of_canLock_false hl
    have hrt : t.agent = .rt := agent_of_permits_rxPoll hp
    refine ⟨w0, w1, q, pushed, a, hrt, hrun, hstop, hn, hq, ha, hrt ▸ hne, ?_⟩
    rw [e]
    rfl

/-! ### Guards that do not hold -/

theorem acceptCal_isNone_of_range {p : Params} {c : Rat} {P : Int} (h1 : -p.calMax ≤ c) (h2 : c ≤ p.calMax) (h3 : 0 < P) :
    (acceptCal p (.finite c) P).isNone = false := by
  rw [acceptCal_of_range h1 h2 h3]
  rfl

theorem timerDue_false {d now : Nat} (h : now < d) : timerDue (some d) now = false := by
  simpa [timerDue] using h

theorem wordsNeeded_eq (syncph : Bool) : wordsNeeded syncph = 2 + syncph.toNat := by cases syncph <;> rfl

/-- TX_FRAME is not enabled while the words of its packet do not fit beside those of TXQ (41_ltc_encoder.md R176). -/
theorem txFrameReady_of_no_room {s : State} (h : 8 < s.txq.length + 2 + s.syncph.toNat) : txFrameReady s = false := by
  have hn : ¬wordsNeeded s.syncph ≤ space Config.txqDepth s.txq := by
    rw [wordsNeeded_eq, space, Config.txqDepth]
    omega
  simp [txFrameReady, hn]

theorem startReady_of_locked {s : State} {arg : ModeArg} (hs : running s.mode = false)
    (ha : arg = .run ∨ arg = .monitor ∨ ∃ n, arg = .jamming n ∧ 1 ≤ n ∧ n ≤ s.par.jamMax)
    (hl : s.canLock .tx = false ∨ s.canLock .div = false) : startReady arg s = false := by
  have hm : (runningMode s.par.jamMax arg).isNone = false := by
    obtain rfl | rfl | ⟨n, rfl, h1, h2⟩ := ha
    · rfl
    · rfl
    · simp [runningMode, h1, h2]
  obtain hl | hl := hl <;> simp [startReady, hs, hm, hl]

/-! ### Blocked operations -/

/-- The operations of 40_timecode_ops.md that take the lock of their file are held while another agent has it (R130). -/
theorem exec_timecodeOp_held {s : State} {i : Instr} {t : File} (hp : permits i s = true)
    (hl : s.canLock (fileLock t) = false)
    (hi : i = .nextFrame t ∨ i = .prevFrame t ∨ i = .toRaw t ∨ i = .toAscii t ∨ (∃ fps df, i = .setFpsDf t fps df) ∨
      (∃ hh mm ss ff, i = .loadTc t hh mm ss ff) ∨ (∃ str, i = .fromAscii t str) ∨
      (∃ n1 n2 n3 n4 n5 n6 n7 n8, i = .setUb t n1 n2 n3 n4 n5 n6 n7 n8) ∨
      ∃ cf clk bgf0 bgf2, i = .setFlags t cf clk bgf0 bgf2) : exec i s = .next s.heldUp := by
  obtain rfl | rfl | rfl | rfl | ⟨_, _, rfl⟩ | ⟨_, _, _, _, rfl⟩ | ⟨_, rfl⟩ | ⟨_, _, _, _, _, _, _, _, rfl⟩ |
    ⟨_, _, _, _, rfl⟩ := hi
  · exact (exec_nextFrame s _).trans (issue_held hp hl)
  · exact (exec_prevFrame s _).trans (issue_held hp hl)
  · exact (exec_toRaw s _).trans (issue_held hp hl)
  · exact (exec_toAscii s _).trans (issue_held hp hl)
  · exact (exec_setFpsDf s _ _ _).trans (issue_held hp hl)
  · exact (exec_loadTc s _ _ _ _ _).trans (issue_held hp hl)
  · exact (exec_fromAscii s _ _).trans (issue_held hp hl)
  · exact (exec_setUb s _ _ _ _ _ _ _ _ _).trans (issue_held hp hl)
  · exact (exec_setFlags s _ _ _ _ _).trans (issue_held hp hl)

theorem exec_txLockOp_held {s : State} {i : Instr} (hp : permits i s = true) (hl : s.canLock .tx = false)
    (hi : (∃ b, i = .encPacket b) ∨ i = .txFrame ∨ ∃ k, i = .jamLoad k) : exec i s = .next s.heldUp := by
  obtain ⟨_, rfl⟩ | rfl | ⟨_, rfl⟩ := hi
  · exact (exec_encPacket s _).trans (issue_held hp hl)
  · exact (exec_txFrame s).trans (issue_held hp (by simp [txFrameReady, hl]))
  · exact (exec_jamLoad s _).trans (issue_held hp (by simp [hl]))

theorem exec_rxLockOp_held {s : State} {i : Instr} (hp : permits i s = true) (hl : s.canLock .rx = false)
    (hi : (∃ w0 w1, i = .decPacket w0 w1) ∨ (∃ x0 x1 x2, i = .decPacket3 x0 x1 x2) ∨
      (∃ w0 w1 s16, i = .decFrame80 w0 w1 s16) ∨ (i = .rxPoll ∧ s.rxHeld.isSome = true) ∨ ∃ k, i = .jamLoad k) :
    exec i s = .next s.heldUp := by
  obtain ⟨_, _, rfl⟩ | ⟨_, _, _, rfl⟩ | ⟨_, _, _, rfl⟩ | ⟨rfl, hh⟩ | ⟨_, rfl⟩ := hi
  · exact (exec_decPacket s _ _).trans (issue_held hp hl)
  · exact (exec_decPacket3 s _ _ _).trans (issue_held hp hl)
  · exact (exec_decFrame80 s _ _ _).trans (issue_held hp hl)
  · obtain ⟨w, hw⟩ := Option.isSome_iff_exists.mp hh
    exact (exec_rxPoll s).trans (issue_held hp (by simp [rxPollReady, hw, hl]))
  · exact (exec_jamLoad s _).trans (issue_held hp (by simp [hl]))

theorem exec_divLockOp_held {s : State} {i : Instr} (hp : permits i s = true) (hl : s.canLock .div = false)
    (hi : i = .mainFire ∨ i = .safeFire ∨ i = .cancelDither) : exec i s = .next s.heldUp := by
  obtain rfl | rfl | rfl := hi
  · exact (exec_mainFire s).trans (issue_held hp (by simp [hl]))
  · exact (exec_safeFire s).trans (issue_held hp (by simp [hl]))
  · exact (exec_cancelDither s).trans (issue_held hp hl)

/-- Settles O8: each condition makes the operation's own guard fail, and `issue` holds it. -/
theorem blockedOperationsHold : Obligations.BlockedOperationsHold := by
  unfold Obligations.BlockedOperationsHold
  intro s i hp hblocked
  obtain ⟨t, hl, hi⟩ | ⟨hl, hi⟩ | ⟨hl, hi⟩ | ⟨hl, hi⟩ | ⟨c, P, rfl, h1, h2, h3, hb⟩ | ⟨c, P, rfl, h1, h2, h3, hs, hl⟩ |
    ⟨arg, rfl, hs, hl, ha⟩ | ⟨rfl, hb⟩ | ⟨rfl, hh, hb⟩ | ⟨hi, hs⟩ | ⟨rfl, d, hd, hlt⟩ | ⟨rfl, d, hd, hlt⟩ := hblocked
  · exact exec_timecodeOp_held hp hl hi
  · exact exec_txLockOp_held hp hl hi
  · exact exec_rxLockOp_held hp hl hi
  · exact exec_divLockOp_held hp hl hi
  · have ha := acceptCal_isNone_of_range h1 h2 h3
    refine (exec_microAdjust s _ _).trans (issue_held hp ?_)
    obtain hl | ⟨hr, hq⟩ := hb
    · simp [microAdjustReady, ha, hl]
    · simp [microAdjustReady, ha, hr, hq]
  · exact (exec_loadCal s _ _).trans (issue_held hp (by simp [loadCalReady, acceptCal_isNone_of_range h1 h2 h3, hs, hl]))
  · exact (exec_start s _).trans (issue_held hp (startReady_of_locked hs ha hl))
  · obtain hroom | hs | hq := hb
    · exact (exec_txFrame s).trans (issue_held hp (txFrameReady_of_no_room hroom))
    · exact (exec_txFrame s).trans (issue_held hp (by simp [txFrameReady, hs]))
    · exact (exec_txFrame s).trans (issue_held hp (by simp [txFrameReady, hq]))
  · refine (exec_rxPoll s).trans (issue_held hp ?_)
    obtain hs | hq := hb
    · simp [rxPollReady, hh, hs]
    · simp [rxPollReady, hh, hq]
  · obtain rfl | ⟨_, rfl⟩ := hi
    · exact (exec_lineTxPop s).trans (issue_held hp hs)
    · exact (exec_lineRxPush s _).trans (issue_held hp hs)
  · exact (exec_mainFire s).trans (issue_held hp (by simp [hd, timerDue_false hlt]))
  · exact (exec_safeFire s).trans (issue_held hp (by simp [hd, timerDue_false hlt]))

/-! ### The state that a turn opens -/

theorem writerOf_eq (s : State) (t : Turn) :
    writerOf s t = if s.inProgress = none then t.writer else s.inProgress := by
  unfold writerOf
  cases s.inProgress <;> simp

theorem afterWriter_of_none_or_self {s : State} {writer : Option Agent} (h : writer = none ∨ writer = some s.agent) :
    afterWriter s writer = s := by
  obtain rfl | rfl := h <;> simp [afterWriter]

/-- An operation in progress beside a turn leaves what it leaves when it is carried out with no LINE step in it. -/
theorem afterWriter_of_op {s d : State} {b : Agent} {later : List Item} {form : Form} {bytes left : List Byte} {j : Instr}
    (hb : b ≠ s.agent) (hp : takeFirst b s.port = some (⟨b, .op form bytes⟩, later)) (hj : decode form bytes = some (j, left))
    (hd : exec j { s with agent := b, between := [], tears := [] } = .next d) : afterWriter s (some b) = d := by
  simp [afterWriter, hb, hp, perform, hj, hd]

theorem State.openTurn_raw_of_none_or_self {s : State} {t : Turn} (h : writerOf s t = none ∨ writerOf s t = some t.agent)
    (turns : List Turn) :
    (s.openTurn t turns).newTx = s.tx.rawFields ∧ (s.openTurn t turns).newRx = s.rx.rawFields := by
  simp only [State.openTurn]
  rw [afterWriter_of_none_or_self h]
  exact ⟨rfl, rfl⟩

theorem State.openTurn_raw_of_op {s d : State} {t : Turn} {turns : List Turn} {b : Agent} {later : List Item} {form : Form}
    {bytes left : List Byte} {j : Instr} (hw : writerOf s t = some b) (hb : b ≠ t.agent)
    (hp : takeFirst b s.port = some (⟨b, .op form bytes⟩, later)) (hj : decode form bytes = some (j, left))
    (hd : exec j { s with sched := turns, now := s.now + t.elapsed, agent := b, between := [], tears := [] } = .next d) :
    (s.openTurn t turns).newTx = d.tx.rawFields ∧ (s.openTurn t turns).newRx = d.rx.rawFields := by
  have ha : afterWriter { s with
      sched := turns, now := s.now + t.elapsed, agent := t.agent, between := t.between, tears := t.tears } (some b) = d :=
    afterWriter_of_op hb hp hj hd
  simp only [State.openTurn, hw, ha, and_self]

/-! ### Unlocked reads and what is in progress (40_timecode_ops.md R142) -/

theorem perform_op {form : Form} {bytes left : List Byte} {i : Instr} (h : decode form bytes = some (i, left)) (s : State) :
    perform (.op form bytes) s = exec i s := by simp [perform, h]

theorem isUnlockedRead_op_iff {form : Form} {bytes left : List Byte} {i : Instr} (h : decode form bytes = some (i, left)) :
    isUnlockedRead (.op form bytes) = true ↔ ∃ f, i = .readRawStable f := by
  cases i <;> simp [isUnlockedRead, h]

theorem mayAct_iff (s : State) (act : Act) :
    mayAct s act = true ↔ (s.inProgress = none ∨ s.inProgress = some s.agent) ∨ isUnlockedRead act = true := by
  simp [mayAct]

theorem progressAfter_of_read {before : State} {act : Act} {writer : Option Agent} (hr : isUnlockedRead act = true)
    (hn : before.newTx ≠ before.tx.rawFields ∨ before.newRx ≠ before.rx.rawFields) :
    progressAfter before act writer = writer := if_pos ⟨hr, hn⟩

theorem progressAfter_eq_none {before : State} {act : Act} {writer : Option Agent}
    (h : ¬isUnlockedRead act = true ∨ before.newTx = before.tx.rawFields ∧ before.newRx = before.rx.rawFields) :
    progressAfter before act writer = none := by
  refine if_neg fun ⟨hr, hn⟩ => ?_
  obtain h | ⟨h1, h2⟩ := h
  · exact h hr
  · exact hn.elim (· h1) (· h2)

/-! ### The step of a decoded operation -/

section Decoded

variable {s : State} {t : Turn} {turns : List Turn} {items : List Item} {form : Form} {bytes left : List Byte} {i : Instr}

/-- A turn whose agent's first item decodes to an operation is that operation in the opened state; a held one stays at the
port. -/
theorem runTurn_of_op (h : takeFirst t.agent s.port = some (⟨t.agent, .op form bytes⟩, items))
    (hi : decode form bytes = some (i, left)) (hm : mayAct (s.openTurn t turns) (.op form bytes) = true) :
    runTurn t turns s = (match exec i (s.openTurn t turns) with
      | .next s' => .next (s'.closeTurn (s.openTurn t turns) items
          (progressAfter (s.openTurn t turns) (.op form bytes) (writerOf s t)))
      | .fault e => .fault e
      | .refused e => .refused e) := by
  have hx := perform_op hi (s.openTurn t turns)
  cases he : exec i (s.openTurn t turns) with
  | next d => exact runTurn_of_next h hm (hx.trans he)
  | fault e => cases e
  | refused e => exact runTurn_of_refused h hm (hx.trans he)

/-- What is in progress after an operation: what an unlocked read found to change a raw field, else nothing. -/
theorem progressAfter_op {progress : Option Agent} (hi : decode form bytes = some (i, left))
    (hread : (∃ f, i = .readRawStable f) →
      ((s.openTurn t turns).newTx ≠ s.tx.rawFields ∨ (s.openTurn t turns).newRx ≠ s.rx.rawFields) → progress = writerOf s t)
    (hnone : (∀ f, i ≠ .readRawStable f) ∨
      (s.openTurn t turns).newTx = s.tx.rawFields ∧ (s.openTurn t turns).newRx = s.rx.rawFields → progress = none) :
    progressAfter (s.openTurn t turns) (.op form bytes) (writerOf s t) = progress := by
  have hr := isUnlockedRead_op_iff hi
  by_cases hq : (∀ f, i ≠ .readRawStable f) ∨
      (s.openTurn t turns).newTx = s.tx.rawFields ∧ (s.openTurn t turns).newRx = s.rx.rawFields
  · rw [hnone hq]
    exact progressAfter_eq_none (hq.imp_left fun hne hu => (hr.mp hu).elim hne)
  · obtain ⟨hf, hn⟩ := not_or.mp hq
    simp only [ne_eq, not_forall, not_not] at hf
    rw [hread hf (not_and_or.mp hn)]
    exact progressAfter_of_read (hr.mpr hf) (not_and_or.mp hn)

end Decoded

/-- Settles O5: by the turn's equations, and by what the operation in progress leaves. -/
theorem stepRunsDecoded : Obligations.StepRunsDecoded := by
  unfold Obligations.StepRunsDecoded
  intro s
  refine ⟨step_of_sched_nil, fun t turns writer hs hw => ?_⟩
  obtain rfl : writer = writerOf s t := hw.trans (writerOf_eq s t).symm
  rw [step_of_sched_cons hs]
  refine ⟨⟨(s.openTurn t turns).newTx, (s.openTurn t turns).newRx, rfl,
      fun hnone => State.openTurn_raw_of_none_or_self hnone turns,
      fun b later form bytes left j d hb hne hp hj hd => State.openTurn_raw_of_op hb hne hp hj hd⟩,
    runTurn_of_nothing_at_port, fun items form bytes left i progress hp hi hread hnone => ⟨fun hgo => ?_,
      fun hin hother hne => ?_⟩⟩
  · have hm : mayAct (s.openTurn t turns) (.op form bytes) = true :=
      (mayAct_iff _ _).mpr ((or_assoc.mpr hgo).imp_right (isUnlockedRead_op_iff hi).mpr)
    rw [runTurn_of_op hp hi hm, progressAfter_op hi hread hnone]
    cases exec i (s.openTurn t turns) <;> rfl
  · have hm : ¬mayAct (s.openTurn t turns) (.op form bytes) = true := fun hm => by
      obtain (h | h) | h := (mayAct_iff _ _).mp hm
      · exact hin h
      · exact hother h
      · exact ((isUnlockedRead_op_iff hi).mp h).elim hne
    exact runTurn_of_blocked hp (Bool.eq_false_iff.mpr hm)

end Sys2Proof.Machine
end

section
/-! PROOF. State (10_state.md): the tables of the rates (R24 to R26), and what holds after reset (R45). -/

namespace Sys2Proof.Machine

/-- Settles O10: table by table, one rate at a time. -/
theorem rateTables : Obligations.RateTables := by
  unfold Obligations.RateTables
  refine ⟨fun r => ?_, rfl, rfl, rfl, rfl, rfl, fun p hp => ?_, fun p hp => ?_, rfl, fun _ => rfl, rfl, rfl⟩
  · cases r <;> decide
  · simp [fam25, hp]
  · simp [fam25, hp]

/-- Settles O56: both register files are `Timecode.reset`, and every other register is a field of `State.resetWith`. -/
theorem resetValues : Obligations.ResetValues := by
  unfold Obligations.ResetValues
  refine ⟨fun T hT => ?_, ?_⟩
  · obtain rfl : T = Timecode.reset := by simpa [State.reset, State.resetWith] using hT
    decide
  · simp [State.reset, State.resetWith, Config.params, Status.reset, Divider.reset, Config.periodDefault]

/-- The default parameters of 00_scope.md R7 are within their bounds, whatever the free values are. -/
theorem params_ok : Config.params.Ok := by
  have hcal : (0 : Rat) ≤ 50 := by norm_num
  have hjam : Config.freeJamOffset % 3 ≤ 2 := by omega
  exact ⟨by decide, by decide, hcal, Nat.succ_pos _, hjam⟩

/-- The block right after reset satisfies the invariant under any parameters within their bounds. -/
theorem resetWith_inv {p : Params} (hp : p.Ok) : Inv (State.resetWith p) where
  params := hp
  queues := ⟨Nat.zero_le _, Nat.zero_le _, Nat.zero_le _⟩
  tx := show Timecode.reset.LegalFile by decide
  rx := show Timecode.reset.time.ff < framesPerSecond Timecode.reset.fps by decide
  mode := rfl
  divider := by simp [DividerConsistent, State.resetWith, Divider.reset]
  timers := by simp [TimersPaired, State.resetWith, Divider.reset]
  halted := fun hu => nomatch hu
  stopped := fun _ _ => rfl
  cal := by
    obtain ⟨-, -, hcal, -, -⟩ := hp
    simp [CalInRange, State.resetWith, Divider.reset, Config.periodDefault, hcal]
  line := by simp [LineLowIffStopped, State.resetWith, running]
  locks := ⟨rfl, rfl, rfl⟩

/-- Settles O57: reset satisfies the invariant under any parameters within their bounds, and its engine is stopped. -/
theorem resetSatisfiesInvariant : Obligations.ResetSatisfiesInvariant :=
  ⟨resetWith_inv params_ok, fun hr => nomatch hr⟩

end Sys2Proof.Machine
end

section
/-! PROOF. The write set of each operation (10_state.md R30 to R38, R42, R44): which registers it writes, said once, and that
no body of an operation writes another. -/

namespace Sys2Proof.Machine

/-! ### The write sets

Each function gives its first argument with the registers of one write set taken from its second. -/

/-- The time of a register file. -/
def Timecode.withTimeOf (T D : Timecode) : Timecode := { T with hh := D.hh, mm := D.mm, ss := D.ss, ff := D.ff }

/-- The file `t` with the fields that an operation writes: a file operand's own, for the encoder TX's time, and for the
decoder all of RX but its rate (10_state.md R30, 42_ltc_decoder.md R190). -/
def Timecode.withWritesOf (T D : Timecode) (t : File) : Instr → Timecode
  | .setFpsDf u _ _ => if u = t then { T.withTimeOf D with fps := D.fps, df := D.df } else T
  | .loadTc u _ _ _ _ | .nextFrame u | .prevFrame u | .fromAscii u _ => if u = t then T.withTimeOf D else T
  | .setUb u _ _ _ _ _ _ _ _ =>
    if u = t then T.setUserBits D.uf1 D.uf2 D.uf3 D.uf4 D.uf5 D.uf6 D.uf7 D.uf8 else T
  | .setFlags u _ _ _ _ => if u = t then T.setFlags D.cf D.clk D.bgf0 D.bgf2 else T
  | .txFrame | .start _ => if t = .tx then T.withTimeOf D else T
  | .jamLoad _ => if t = .tx then { T.withTimeOf D with df := D.df, clk := D.clk } else T
  | .decPacket _ _ | .decPacket3 _ _ _ | .decFrame80 _ _ _ | .rxPoll => if t = .rx then { D with fps := T.fps } else T
  | .toRaw _ | .toAscii _ | .readRawStable _ | .encPacket _ | .microAdjust _ _ | .mainFire | .safeFire | .cancelDither
  | .loadCal _ _ | .stop | .setMode _ | .acquire _ | .release _ | .lineTxPop | .lineRxPush _
  | .ltcW0 _ | .ltcW1 _ | .p3X0 _ | .p3X1 _ _ | .p3X2 _ | .sync16 | .raw32 _ => T

/-- What a cycle of the dither machine writes: all of the divider but `DIV0` and the request. -/
def Divider.withCycleOf (d e : Divider) : Divider := { e with div0 := d.div0, calTgt := d.calTgt, period := d.period }

/-- The flags of a decode (42_ltc_decoder.md R194). -/
def State.withDecodeFlagsOf (s d : State) : State := { s with st := { s.st with rxOk := d.st.rxOk, rxPerr := d.st.rxPerr } }

/-- What LINE_RX writes: RXQ and its flag. -/
def State.withPushOf (s d : State) : State := { s with rxq := d.rxq, st := { s.st with rxOvf := d.st.rxOvf } }

/-- What LINE_TX writes: TXQ, the line, and the registers of UNDERFLOW (60_exceptions.md R273). -/
def State.withPopOf (s d : State) : State := { s with
  mode := d.mode, stopReq := d.stopReq, st := { s.st with underflow := d.st.underflow }, txq := d.txq,
  lineOut := d.lineOut, lineWords := d.lineWords }

/-- The registers that an operation writes outside the register files. -/
def State.withRegistersOf (s d : State) : Instr → State
  | .setFpsDf _ _ _ => { s with draws := d.draws }
  | .txFrame => { (s.withPopOf d).withPushOf d with syncph := d.syncph, echoq := d.echoq }
  | .decPacket _ _ => s.withDecodeFlagsOf d
  | .decPacket3 _ _ _ | .decFrame80 _ _ _ =>
    (s.withDecodeFlagsOf d).setSt { (s.withDecodeFlagsOf d).st with rxSyncErr := d.st.rxSyncErr }
  | .rxPoll => { (s.withDecodeFlagsOf d).withPushOf d with rxHeld := d.rxHeld }
  | .microAdjust _ _ => s.setDv { d.dv with div0 := s.dv.div0 }
  | .mainFire | .cancelDither => s.setDv (s.dv.withCycleOf d.dv)
  | .safeFire => (s.setDv (s.dv.withCycleOf d.dv)).setSt { s.st with safetyCount := d.st.safetyCount }
  | .loadCal _ _ => s.setDv { s.dv with calTgt := d.dv.calTgt, period := d.dv.period }
  | .start _ => { s with
      mode := d.mode, stopReq := d.stopReq, syncph := d.syncph, txq := d.txq, rxq := d.rxq, echoq := d.echoq,
      lineOut := d.lineOut, dv := { d.dv with calTgt := s.dv.calTgt, period := s.dv.period },
      st := { s.st with underflow := d.st.underflow, rxOvf := d.st.rxOvf, safetyCount := d.st.safetyCount } }
  | .stop => { s with stopReq := d.stopReq }
  | .setMode _ => { s with mode := d.mode }
  | .acquire l | .release l => s.setHolder l (d.holder l)
  | .lineTxPop => s.withPopOf d
  | .lineRxPush _ => s.withPushOf d
  | .loadTc _ _ _ _ _ | .nextFrame _ | .prevFrame _ | .toRaw _ | .toAscii _ | .fromAscii _ _ | .setUb _ _ _ _ _ _ _ _ _
  | .setFlags _ _ _ _ _ | .readRawStable _ | .encPacket _ | .jamLoad _
  | .ltcW0 _ | .ltcW1 _ | .p3X0 _ | .p3X1 _ _ | .p3X2 _ | .sync16 | .raw32 _ => s

/-- `s` with all that an operation writes taken from `d`: registers, register files, and what it delivers and raises. -/
def State.withWritesOf (s d : State) (i : Instr) : State := { s.withRegistersOf d i with
  tx := s.tx.withWritesOf d.tx .tx i, rx := s.rx.withWritesOf d.rx .rx i, result := d.result, events := d.events }

theorem State.withWritesOf_tc (s d : State) (i : Instr) (t : File) :
    (s.withWritesOf d i).tc t = (s.tc t).withWritesOf (d.tc t) t i := by cases t <;> rfl

/-! ### Reading a write set -/

theorem Timecode.withWritesOf_self (T : Timecode) (t : File) (i : Instr) : T.withWritesOf T t i = T := by
  cases i with
  | setFpsDf | loadTc | nextFrame | prevFrame | fromAscii | setUb | setFlags | txFrame | decPacket | decPacket3
  | decFrame80 | rxPoll | start | jamLoad => exact ite_self T
  | _ => rfl

/-- A write set does not see what was delivered and raised before. -/
theorem State.withWritesOf_opened (s d : State) (i : Instr) : s.opened.withWritesOf d i = s.withWritesOf d i := by
  cases i with
  | acquire l | release l => cases l <;> rfl
  | _ => rfl

/-- What only answers and raises is within every write set. -/
theorem State.withWritesOf_of_registers_kept {s d : State} {r : Result} {es : List Event}
    (h : d = { s with result := r, events := es }) (i : Instr) : d = s.withWritesOf d i := by
  subst h
  have hr : s.withRegistersOf { s with result := r, events := es } i = s := by
    cases i with
    | acquire l | release l => cases l <;> rfl
    | _ => rfl
  simp only [State.withWritesOf, Timecode.withWritesOf_self, hr]

theorem State.withRegistersOf_holder (s d : State) {i : Instr} {l : Lock} (ha : i ≠ .acquire l) (hr : i ≠ .release l) :
    (s.withRegistersOf d i).holder l = s.holder l := by
  cases i with
  | acquire m => exact State.setHolder_holder_ne s (fun e => ha (by rw [e])) _
  | release m => exact State.setHolder_holder_ne s (fun e => hr (by rw [e])) _
  | _ => cases l <;> rfl

theorem State.withWritesOf_holder (s d : State) (i : Instr) (l : Lock) :
    (s.withWritesOf d i).holder l = (s.withRegistersOf d i).holder l := by
  cases l <;> rfl

/-! ### Timecode value operations -/

/-- The frame steps, however many, write the time alone. -/
theorem Timecode.stepN_eq_setTime : ∀ (k : Nat) (T : Timecode), ∃ v, Timecode.stepN k T = T.setTime v
  | 0, T => ⟨T.time, T.setTime_time.symm⟩
  | k + 1, T => Timecode.stepN_eq_setTime k T.next

theorem Timecode.prevN_eq_setTime : ∀ (k : Nat) (T : Timecode), ∃ v, Timecode.prevN k T = T.setTime v
  | 0, T => ⟨T.time, T.setTime_time.symm⟩
  | k + 1, T => Timecode.prevN_eq_setTime k T.prev

variable (s : State)

theorem State.setFpsDf_writes (t : File) (code : BitVec 3) (df : Bool) :
    s.setFpsDf t code df = s.withWritesOf (s.setFpsDf t code df) (.setFpsDf t code df) := by
  unfold State.setFpsDf
  split
  · cases t <;> rfl
  · exact State.withWritesOf_of_registers_kept rfl _

theorem State.loadTime_writes (t : File) (v : Time) (hh mm ss ff : Nat) :
    s.loadTime t v = s.withWritesOf (s.loadTime t v) (.loadTc t hh mm ss ff) := by
  unfold State.loadTime
  split
  · cases t <;> rfl
  · exact State.withWritesOf_of_registers_kept rfl _

theorem State.fromAscii_writes (t : File) (str : List Byte) :
    s.fromAscii t str = s.withWritesOf (s.fromAscii t str) (.fromAscii t str) := by
  unfold State.fromAscii
  split
  · exact s.loadTime_writes t _ 0 0 0 0
  · exact State.withWritesOf_of_registers_kept rfl _

theorem State.jamLoad_writes (k : Nat) : s.jamLoad k = s.withWritesOf (s.jamLoad k) (.jamLoad k) := by
  unfold State.jamLoad
  split
  · obtain ⟨v, e⟩ := Timecode.stepN_eq_setTime k (jamCopy s.rx s.tx)
    rw [e]
    rfl
  · exact State.withWritesOf_of_registers_kept rfl _

/-! ### The decoder -/

theorem State.decPacket_writes (w0 w1 : Word) : s.decPacket w0 w1 = s.withWritesOf (s.decPacket w0 w1) (.decPacket w0 w1) := by
  rw [decPacket_eq]
  cases frameOk w0 w1 s.rx.fps <;> rfl

/-- The decode after a sync check that went well writes RX_SYNCERR too (42_ltc_decoder.md R195, R196). -/
theorem State.syncChecked_decPacket_writes (w0 w1 x0 x1 x2 : Word) :
    (s.setSt (s.st.syncChecked true)).decPacket w0 w1 =
      s.withWritesOf ((s.setSt (s.st.syncChecked true)).decPacket w0 w1) (.decPacket3 x0 x1 x2) := by
  rw [decPacket_eq]
  cases frameOk w0 w1 (s.setSt (s.st.syncChecked true)).rx.fps <;> rfl

theorem State.decPacket3_writes (x0 x1 x2 : Word) :
    s.decPacket3 x0 x1 x2 = s.withWritesOf (s.decPacket3 x0 x1 x2) (.decPacket3 x0 x1 x2) := by
  unfold State.decPacket3
  split
  · exact s.syncChecked_decPacket_writes _ _ x0 x1 x2
  · rfl

theorem State.decFrame80_writes (w0 w1 : Word) (s16 : Half) :
    s.decFrame80 w0 w1 s16 = s.withWritesOf (s.decFrame80 w0 w1 s16) (.decFrame80 w0 w1 s16) := by
  unfold State.decFrame80
  split
  · exact s.syncChecked_decPacket_writes w0 w1 0 0 0
  · rfl

theorem State.rxPoll_writes : s.rxPoll = s.withWritesOf s.rxPoll .rxPoll := by
  obtain ⟨w0, w1, -, e⟩ | ⟨-, -, e⟩ | ⟨-, w0, w1, q, s1, pushed, -, f, m, r, o, x, l, u, -, -, c⟩ := rxPoll_cases s
  · rw [e, decPacket_eq]
    cases frameOk w0 w1 ({ s with rxHeld := none } : State).rx.fps <;> rfl
  · rw [e]
    exact State.withWritesOf_of_registers_kept rfl _
  · have e1 := f.eq_of_engine_kept m r o x l u
    obtain ⟨-, e⟩ | ⟨-, e⟩ := c
    · rw [e, decPacket_eq, e1]
      cases frameOk w0 w1 s.rx.fps <;> rfl
    · rw [e, e1]
      rfl

/-! ### The line and the encoder -/

/-- What LINE steps write that fall between the sub-steps of another agent's operation (notes/assumptions/17.md). -/
def State.withLineOf (s d : State) : State := { (s.withPopOf d).withPushOf d with result := d.result, events := d.events }

theorem State.lineTxPop_writes : s.lineTxPop = s.withWritesOf s.lineTxPop .lineTxPop := by
  unfold State.lineTxPop
  split <;> rfl

theorem State.lineRxPush_writes (w : Word) : s.lineRxPush w = s.withWritesOf (s.lineRxPush w) (.lineRxPush w) := by
  unfold State.lineRxPush
  split <;> rfl

variable {s}

theorem State.withLineOf_trans {a b : State} (h : a = s.withLineOf a) (k : b = a.withLineOf b) : b = s.withLineOf b := by
  rw [h] at k
  exact k

theorem LineFrame.eq_withLineOf {s' : State} (f : LineFrame s s') : s' = s.withLineOf s' := by
  dsimp only [State.withLineOf, State.withPushOf, State.withPopOf]
  rw [← f.tx, ← f.rx, ← f.txLock, ← f.rxLock, ← f.divLock, ← f.syncph, ← f.dv, ← f.echoq, ← f.rxHeld, ← f.now, ← f.par,
    ← f.agent, ← f.draws, ← f.between, ← f.tears, ← f.newTx, ← f.newRx, ← f.inProgress, ← f.port, ← f.sched, ← f.rxOk,
    ← f.rxPerr, ← f.rxSyncErr, ← f.safetyCount]

/-- The pushes of a packet write no more than LINE steps do, whether or not there is room. -/
theorem pushPacket_eq_withLineOf : ∀ (ws : List Word) (points : List (List LineStep)) (s : State),
    pushPacket ws points s = s.withLineOf (pushPacket ws points s)
  | [], points, s => (lineSteps_frame (points.headD []) s).eq_withLineOf
  | w :: ws, points, s => by
    have h := (lineSteps_frame (points.headD []) s).eq_withLineOf
    rw [pushPacket]
    split
    · exact State.withLineOf_trans (State.withLineOf_trans h rfl) (pushPacket_eq_withLineOf ws points.tail _)
    · exact h

variable (s)

theorem State.txFrame_writes : s.txFrame = s.withWritesOf s.txFrame .txFrame := by
  have h := pushPacket_eq_withLineOf (encPacketOf s.par s.tx s.syncph) s.between (s.pushEcho s.tx.raw)
  unfold State.txFrame
  dsimp only
  rw [h]
  rfl

/-! ### The clock adjuster -/

theorem beginCycle_eq_withCycleOf (p : Params) (now : Nat) (d : Divider) :
    beginCycle p now d = d.withCycleOf (beginCycle p now d) := by
  unfold beginCycle
  dsimp only
  split <;> rfl

theorem mainFireDivider_eq_withCycleOf (p : Params) (now : Nat) (d : Divider) :
    mainFireDivider p now d = d.withCycleOf (mainFireDivider p now d) := by
  unfold mainFireDivider
  split
  · rfl
  · dsimp only
    split
    · exact beginCycle_eq_withCycleOf p now (restoreDivider d)
    · rfl
  · exact beginCycle_eq_withCycleOf p now { d with tMain := none, tSafe := none }

/-- MICRO_ADJUST stores the request, and the rest is what a cycle writes. -/
theorem adjustDivider_eq_withCycleOf (p : Params) (now : Nat) (c : Rat) (q : Nat) (d : Divider) :
    adjustDivider p now c q d = ({ d with calTgt := c, period := q } : Divider).withCycleOf (adjustDivider p now c q d) := by
  unfold adjustDivider
  dsimp only
  split
  · exact beginCycle_eq_withCycleOf p now { d with
      calTgt := c, period := q, coarse := coarseOf p.calDir c, div := d.div0 + coarseOf p.calDir c + d.fine }
  · rfl

theorem State.microAdjust_writes (c : CalArg) (P : Int) (period : Option Int) :
    s.microAdjust c P = s.withWritesOf (s.microAdjust c P) (.microAdjust c period) := by
  obtain ⟨-, e⟩ | ⟨x, q, -, ⟨-, e⟩ | ⟨-, e⟩⟩ := microAdjust_cases s c P <;> rw [e]
  · exact State.withWritesOf_of_registers_kept rfl _
  · rw [adjustDivider_eq_withCycleOf]
    rfl
  · rfl

/-- The request in force, asked again, stays as it is (44_engine_control.md R251, 43_clock_adjust.md R222). -/
theorem State.microAdjust_again :
    ∃ e es, s.microAdjust (.finite s.dv.calTgt) s.dv.period = { s with dv := s.dv.withCycleOf e, events := es } := by
  obtain ⟨-, e⟩ | ⟨x, q, ha, ⟨-, e⟩ | ⟨-, e⟩⟩ := microAdjust_cases s (.finite s.dv.calTgt) s.dv.period <;> rw [e]
  · exact ⟨s.dv, _, rfl⟩
  · obtain ⟨hx, -, -, hq⟩ := acceptCal_some ha
    obtain rfl : x = s.dv.calTgt := (CalArg.finite.inj hx).symm
    obtain rfl : q = s.dv.period := Int.ofNat.inj hq
    rw [adjustDivider_eq_withCycleOf]
    exact ⟨_, _, rfl⟩
  · exact ⟨cancelDivider s.dv, _, rfl⟩

theorem State.mainFire_writes : s.mainFire = s.withWritesOf s.mainFire .mainFire := by
  unfold State.mainFire
  split
  · exact State.withWritesOf_of_registers_kept rfl _
  · rw [mainFireDivider_eq_withCycleOf]
    rfl

theorem State.safeFire_writes : s.safeFire = s.withWritesOf s.safeFire .safeFire := by
  unfold State.safeFire
  split
  · exact State.withWritesOf_of_registers_kept rfl _
  · obtain ⟨e, es, h⟩ := State.microAdjust_again (((s.setSt s.st.safetyCounted).raise .safetyTimeout).setDv
      { restoreDivider s.dv with dstate := .idle })
    exact h ▸ rfl

theorem State.loadCal_writes (c : CalArg) (P : Int) (period : Option Int) :
    s.loadCal c P = s.withWritesOf (s.loadCal c P) (.loadCal c period) := by
  unfold State.loadCal
  split
  · exact State.withWritesOf_of_registers_kept rfl _
  · split
    · exact State.withWritesOf_of_registers_kept rfl _
    · rfl

/-! ### Engine control -/

/-- With no LINE step between the pushes a packet writes TXQ alone. -/
theorem pushPacket_of_no_points : ∀ (ws : List Word) (s : State), ∃ q, pushPacket ws [] s = { s with txq := q }
  | [], s => ⟨s.txq, rfl⟩
  | w :: ws, s => by
    obtain ⟨q, h⟩ := pushPacket_of_no_points ws (s.pushTx w)
    refine ⟨q, ?_⟩
    rw [pushPacket, List.headD_nil, State.lineSteps, if_pos rfl, List.tail_nil, h]
    rfl

theorem State.txFrame_of_no_points (h : s.between = []) : ∃ v ph q e,
    s.txFrame = { s with tx := s.tx.setTime v, syncph := ph, txq := q, echoq := e, result := .none } := by
  obtain ⟨q, hq⟩ := pushPacket_of_no_points (encPacketOf s.par s.tx s.syncph) (s.pushEcho s.tx.raw)
  rw [← h] at hq
  refine ⟨nextTime (framesPerSecond s.tx.fps) s.tx.df s.tx.time, !s.syncph, q, (s.pushEcho s.tx.raw).echoq, ?_⟩
  unfold State.txFrame
  dsimp only
  rw [hq]
  rfl

/-- The prefill of START, into which no LINE step falls, writes the time of TX, the sync phase, TXQ and ECHOQ. -/
theorem prefill_of_no_points : ∀ (k : Nat) (s : State), s.between = [] → ∃ v ph q e r,
    prefill k s = { s with tx := s.tx.setTime v, syncph := ph, txq := q, echoq := e, result := r }
  | 0, s, _ => ⟨s.tx.time, s.syncph, s.txq, s.echoq, s.result, by rw [Timecode.setTime_time]; rfl⟩
  | k + 1, s, h => by
    rw [prefill]
    split
    · obtain ⟨v, ph, q, e, h1⟩ := s.txFrame_of_no_points h
      obtain ⟨v', ph', q', e', r, h2⟩ := prefill_of_no_points k s.txFrame (by rw [h1]; exact h)
      exact ⟨v', ph', q', e', r, by rw [h2, h1]; rfl⟩
    · exact ⟨s.tx.time, s.syncph, s.txq, s.echoq, s.result, by rw [Timecode.setTime_time]⟩

theorem State.startIn_writes (m : Mode) (arg : ModeArg) : s.startIn m = s.withWritesOf (s.startIn m) (.start arg) := by
  obtain ⟨v, ph, q, e, r, h⟩ := prefill_of_no_points Config.txWatermark { s.clearSession with between := [] } rfl
  unfold State.startIn
  rw [h]
  dsimp only
  obtain ⟨d, es, h⟩ := State.microAdjust_again { s.clearSession with
    tx := s.clearSession.tx.setTime v, syncph := ph, txq := q, echoq := e, result := r, mode := m, lineOut := .driven,
    between := s.between }
  exact h ▸ rfl

theorem State.start_writes (arg : ModeArg) : s.start arg = s.withWritesOf (s.start arg) (.start arg) := by
  unfold State.start
  split
  · exact State.withWritesOf_of_registers_kept rfl _
  · split
    · exact s.startIn_writes _ arg
    · exact State.withWritesOf_of_registers_kept rfl _

theorem State.setModeTo_writes (arg : ModeArg) : s.setModeTo arg = s.withWritesOf (s.setModeTo arg) (.setMode arg) := by
  unfold State.setModeTo
  split
  · split
    · rfl
    · exact State.withWritesOf_of_registers_kept rfl _
  · exact State.withWritesOf_of_registers_kept rfl _

end Sys2Proof.Machine
end

section
/-! PROOF. The writers of each register (10_state.md R30 to R38, R44): every operation stays within its write set, and so do
the acts at the ports. -/

namespace Sys2Proof.Machine

theorem issue_writes {i j : Instr} {ready : Bool} {body : State → State} {s s' : State} {o : Out}
    (e : o = issue j ready body s) (h : o = .next s') (hb : body s.opened = s.opened.withWritesOf (body s.opened) i) :
    s' = s.withWritesOf s' i := by
  obtain ⟨-, ⟨-, rfl⟩ | ⟨-, rfl⟩⟩ := issue_next (e ▸ h)
  · rw [← State.withWritesOf_opened]
    exact hb
  · exact State.withWritesOf_of_registers_kept rfl i

/-- Every operation that answers a next state has changed the registers of its write set alone. -/
theorem exec_writes {i : Instr} {s s' : State} (h : exec i s = .next s') : s' = s.withWritesOf s' i := by
  cases i with
  | setFpsDf t code df => exact issue_writes (exec_setFpsDf s t code df) h (State.setFpsDf_writes _ t code df)
  | loadTc t hh mm ss ff => exact issue_writes (exec_loadTc s t hh mm ss ff) h (State.loadTime_writes _ t _ hh mm ss ff)
  | nextFrame t => exact issue_writes (exec_nextFrame s t) h (by cases t <;> rfl)
  | prevFrame t => exact issue_writes (exec_prevFrame s t) h (by cases t <;> rfl)
  | toRaw t => exact issue_writes (exec_toRaw s t) h (State.withWritesOf_of_registers_kept rfl _)
  | toAscii t => exact issue_writes (exec_toAscii s t) h (State.withWritesOf_of_registers_kept rfl _)
  | fromAscii t str => exact issue_writes (exec_fromAscii s t str) h (State.fromAscii_writes _ t str)
  | setUb t n1 n2 n3 n4 n5 n6 n7 n8 => exact issue_writes (exec_setUb s t n1 n2 n3 n4 n5 n6 n7 n8) h (by cases t <;> rfl)
  | setFlags t cf clk bgf0 bgf2 => exact issue_writes (exec_setFlags s t cf clk bgf0 bgf2) h (by cases t <;> rfl)
  | readRawStable t => exact issue_writes (exec_readRawStable s t) h (State.withWritesOf_of_registers_kept rfl _)
  | encPacket b => exact issue_writes (exec_encPacket s b) h (State.withWritesOf_of_registers_kept rfl _)
  | txFrame => exact issue_writes (exec_txFrame s) h (State.txFrame_writes _)
  | decPacket w0 w1 => exact issue_writes (exec_decPacket s w0 w1) h (State.decPacket_writes _ w0 w1)
  | decPacket3 x0 x1 x2 => exact issue_writes (exec_decPacket3 s x0 x1 x2) h (State.decPacket3_writes _ x0 x1 x2)
  | decFrame80 w0 w1 s16 => exact issue_writes (exec_decFrame80 s w0 w1 s16) h (State.decFrame80_writes _ w0 w1 s16)
  | rxPoll => exact issue_writes (exec_rxPoll s) h (State.rxPoll_writes _)
  | microAdjust c P => exact issue_writes (exec_microAdjust s c P) h (State.microAdjust_writes _ c _ P)
  | mainFire => exact issue_writes (exec_mainFire s) h (State.mainFire_writes _)
  | safeFire => exact issue_writes (exec_safeFire s) h (State.safeFire_writes _)
  | cancelDither => exact issue_writes (exec_cancelDither s) h rfl
  | loadCal c P => exact issue_writes (exec_loadCal s c P) h (State.loadCal_writes _ c _ P)
  | start arg => exact issue_writes (exec_start s arg) h (State.start_writes _ arg)
  | stop => exact issue_writes (exec_stop s) h rfl
  | setMode arg => exact issue_writes (exec_setMode s arg) h (State.setModeTo_writes _ arg)
  | acquire l =>
    obtain ⟨-, ⟨-, rfl⟩ | ⟨-, rfl⟩⟩ := exec_acquire_next h
    · cases l <;> rfl
    · exact State.withWritesOf_of_registers_kept rfl _
  | release l =>
    obtain ⟨-, -, rfl⟩ := exec_release_next h
    cases l <;> rfl
  | jamLoad k => exact issue_writes (exec_jamLoad s k) h (State.jamLoad_writes _ k)
  | lineTxPop => exact issue_writes (exec_lineTxPop s) h (State.lineTxPop_writes _)
  | lineRxPush w => exact issue_writes (exec_lineRxPush s w) h (State.lineRxPush_writes _ w)
  | ltcW0 | ltcW1 | p3X0 | p3X1 | p3X2 | sync16 | raw32 => cases h

/-! ### Acts at the ports -/

section Acts

variable {s s' : State}

theorem poll_next (h : poll s = .next s') : s.agent = .rt ∧ (exec .rxPoll s = .next s' ∨ s' = s.opened) := by
  unfold poll at h
  split at h
  · next ha =>
    split at h
    · exact ⟨ha, .inl h⟩
    · cases h; exact ⟨ha, .inr rfl⟩
  · cases h

theorem refill_next (h : refill s = .next s') : s.agent = .rt ∧ (exec .txFrame s = .next s' ∨ s' = s.opened) := by
  unfold refill at h
  split at h
  · next ha =>
    split at h
    · exact ⟨ha, .inl h⟩
    · cases h; exact ⟨ha, .inr rfl⟩
  · cases h

theorem echoPop_next (h : echoPop s = .next s') : s.agent = .ui ∧
    ((∃ w q, s.echoq = w :: q ∧ s' = ({ s.opened with echoq := q } : State).answer (.word w)) ∨
      s.echoq = [] ∧ s' = s.heldUp) := by
  unfold echoPop at h
  split at h
  · next ha =>
    split at h
    · next w q hq => cases h; exact ⟨ha, .inl ⟨w, q, hq, rfl⟩⟩
    · next hq => cases h; exact ⟨ha, .inr ⟨hq, rfl⟩⟩
  · cases h

theorem stopCheck_next (h : stopCheck s = .next s') : s.agent = .rt ∧
    (s.stopReq = true ∧ (s.canLock .div = true ∧ s' = s.opened.finishStop ∨ s.canLock .div = false ∧ s' = s.heldUp) ∨
      s.stopReq = false ∧ s' = s.opened) := by
  unfold stopCheck at h
  split at h
  · next ha =>
    refine ⟨ha, ?_⟩
    cases hq : s.stopReq <;> cases hl : s.canLock .div <;> simpa [hq, hl, eq_comm] using h
  · cases h

theorem rebuild_next (h : rebuild s = .next s') : s.agent = .host ∧ running s.mode = false ∧
    s' = { State.resetWith s.par with
      now := s.now, lineWords := s.lineWords, agent := s.agent, draws := s.draws, between := s.between, tears := s.tears,
      newTx := s.newTx, newRx := s.newRx, port := s.port, sched := s.sched } := by
  unfold rebuild at h
  split at h
  · next hg => cases h; exact ⟨hg.1, hg.2, rfl⟩
  · cases h

/-- The counted steps write the time of their file alone (30_encoding.md R114). -/
theorem underOneHold_writes {i : Instr} {t : File} {n : Nat} {stepped : Timecode} (h : underOneHold i t n stepped s = .next s')
    (hv : ∃ v, stepped = (s.tc t).setTime v) : ∃ v, s' =
      ({ s with result := s'.result, events := [] } : State).setTc t ((s.tc t).setTime v) := by
  obtain ⟨v, rfl⟩ := hv
  obtain ⟨-, rfl⟩ | ⟨-, -, ⟨-, rfl⟩ | ⟨-, rfl⟩⟩ := underOneHold_next h
  · exact ⟨(s.tc t).time, by rw [Timecode.setTime_time]; cases t <;> rfl⟩
  · exact ⟨v, by cases t <;> rfl⟩
  · exact ⟨(s.tc t).time, by rw [Timecode.setTime_time]; cases t <;> rfl⟩

theorem perform_counted_writes {act : Act} {t : File} {n : Nat} (ha : act = .stepCount t n ∨ act = .prevFrameCount t n)
    (h : perform act s = .next s') : ∃ v, s' =
      ({ s with result := s'.result, events := [] } : State).setTc t ((s.tc t).setTime v) := by
  obtain rfl | rfl := ha
  · exact underOneHold_writes h (Timecode.stepN_eq_setTime n _)
  · exact underOneHold_writes h (Timecode.prevN_eq_setTime n _)

end Acts

/-- Settles O60: an operation changes its write set alone, and each clause is read off the write sets, one operation at a time;
each act at the ports is an operation, or does what its inversion lemma says. -/
theorem writersOfEachRegister : Obligations.WritersOfEachRegister := by
  unfold Obligations.WritersOfEachRegister
  refine ⟨fun i s s' h => ?_, fun act s s' h => ⟨?_, ?_, ?_, ?_, fun t n ha => ?_, ?_⟩⟩
  · obtain ⟨d, rfl⟩ : ∃ d, s' = s.withWritesOf d i := ⟨s', exec_writes h⟩
    refine ⟨fun t => ?file, ?_, ?_, ?_, ?_, ?_, ?_, ?_, ?_, ?_, ?_, ?_, ?_, fun l hl => ?holder, ?_⟩
    case file =>
      rw [State.withWritesOf_tc]
      generalize s.tc t = T, d.tc t = D
      cases i with
      | setFpsDf | loadTc | nextFrame | prevFrame | fromAscii | setUb | setFlags | txFrame | decPacket | decPacket3
      | decFrame80 | rxPoll | start | jamLoad =>
        simp only [Timecode.withWritesOf]
        split
        · next e =>
          subst e
          simp [Timecode.withTimeOf, Timecode.time, Timecode.setUserBits, Timecode.setFlags, Decodes]
        · simp
      | _ => simp [Timecode.withWritesOf]
    case holder =>
      by_contra hn
      obtain ⟨ha, hr⟩ := not_or.mp hn
      exact hl ((State.withWritesOf_holder s d i l).trans (State.withRegistersOf_holder s d ha hr))
    all_goals
      dsimp only [State.withWritesOf]
      cases i <;> simp [State.withRegistersOf, State.withPopOf, State.withPushOf, State.withDecodeFlagsOf,
        Divider.withCycleOf, Decodes]
  · rintro rfl
    exact (poll_next h).2
  · rintro rfl
    exact (refill_next h).2
  · rintro rfl
    obtain ⟨ha, ⟨w, q, -, rfl⟩ | ⟨-, rfl⟩⟩ := echoPop_next h <;> exact ⟨ha, rfl⟩
  · rintro rfl
    obtain ⟨ha, ⟨-, ⟨-, rfl⟩ | ⟨-, rfl⟩⟩ | ⟨-, rfl⟩⟩ := stopCheck_next h <;> exact ⟨ha, rfl⟩
  · obtain ⟨v, e⟩ := perform_counted_writes ha h
    exact ⟨_, _, _, _, e⟩
  · rintro rfl
    obtain ⟨ha, hr, rfl⟩ := rebuild_next h
    exact ⟨ha, hr, rfl⟩

end Sys2Proof.Machine
end

section
/-! PROOF. Queues (20_memory.md): the display software's pop of ECHOQ (R62, R63). -/

namespace Sys2Proof.Machine

variable {s : State}

/-! ### The three branches of `Pop(ECHOQ)` -/

theorem echoPop_of_cons {w : Word} {q : List Word} (ha : s.agent = .ui) (hq : s.echoq = w :: q) :
    echoPop s = .next (({ s.opened with echoq := q } : State).answer (.word w)) := by simp [echoPop, ha, hq]

theorem echoPop_of_nil (ha : s.agent = .ui) (hq : s.echoq = []) : echoPop s = .next s.heldUp := by simp [echoPop, ha, hq]

theorem echoPop_of_other_agent (ha : s.agent ≠ .ui) : echoPop s = .refused (.notPermitted s.agent) := if_neg ha

/-- Settles O53: the act at the port is `echoPop`, and each clause is one of its branches. -/
theorem echoPopTakesOldest : Obligations.EchoPopTakesOldest := by
  unfold Obligations.EchoPopTakesOldest
  intro s
  refine ⟨fun w q ha hq => ?pops, fun ha hq => ?holds, fun ha => ?refuses⟩
  case pops => exact echoPop_of_cons ha hq
  case holds => exact echoPop_of_nil ha hq
  case refuses => exact echoPop_of_other_agent ha

end Sys2Proof.Machine
end

section
/-! PROOF. Encoding (30_encoding.md): the word layouts, packed and unpacked (R92, R93, R105). -/

namespace Sys2Proof

/-! ### One field of a word

A word is the join of its fields. Of one field, a slice at the field's own place reads the field, and a slice or a bit beside it
reads nothing. -/

@[simp] theorem extractLsb'_fieldAt_same {n k : Nat} (v : BitVec n) (h : k + n ≤ 32) : (fieldAt v k).extractLsb' k n = v := by
  apply BitVec.eq_of_getLsbD_eq
  intro i hi
  rw [BitVec.getLsbD_extractLsb', fieldAt_getLsbD]
  simp [hi, show k + i < 32 by omega]

@[simp] theorem fieldAt_getLsbD_beside {n k i : Nat} (v : BitVec n) (h : i < k ∨ k + n ≤ i) :
    (fieldAt v k).getLsbD i = false := by
  rw [fieldAt_getLsbD]
  obtain h | h := h
  · simp [Nat.not_le.mpr h]
  · simp [BitVec.getLsbD_of_ge v (i - k) (by omega)]

@[simp] theorem extractLsb'_fieldAt_beside {n m j k : Nat} (v : BitVec n) (h : j + m ≤ k ∨ k + n ≤ j) :
    (fieldAt v k).extractLsb' j m = 0#m := by
  apply BitVec.eq_of_getLsbD_eq
  intro i hi
  rw [BitVec.getLsbD_extractLsb', fieldAt_getLsbD_beside v (by omega)]
  simp

@[simp] theorem extractLsb'_bitAt_beside {m j k : Nat} (b : Bool) (h : j + m ≤ k ∨ k + 1 ≤ j) :
    (bitAt b k).extractLsb' j m = 0#m := extractLsb'_fieldAt_beside _ h

/-! ### One slice of a word, put back at its place -/

theorem fieldAt_extractLsb'_getLsbD (w : Word) (k n : Nat) {i : Nat} (hi : i < 32) :
    (fieldAt (w.extractLsb' k n) k).getLsbD i = (decide (k ≤ i ∧ i < k + n) && w.getLsbD i) := by
  rw [fieldAt_getLsbD, BitVec.getLsbD_extractLsb']
  by_cases hk : k ≤ i
  · simp [hi, hk, show i - k < n ↔ i < k + n by omega]
  · simp [hk]

theorem bitAt_getLsbD_getLsbD (w : Word) (k : Nat) {i : Nat} (hi : i < 32) :
    (bitAt (w.getLsbD k) k).getLsbD i = (decide (i = k) && w.getLsbD i) := by
  rw [bitAt_getLsbD]
  by_cases hk : i = k
  · subst hk
    simp [hi]
  · simp [hk]

/-! ### The three layouts

Fields are read back slice by slice: each slice meets its own field and lies beside the others. A word is put together again bit
by bit: each bit lies in one of the slices. -/

theorem LtcW0.ofWord_word (f : LtcW0) : LtcW0.ofWord f.word = f := by
  simp [LtcW0.ofWord, LtcW0.word, BitVec.extractLsb'_or, bitAt_getLsbD, -BitVec.getLsbD_eq_getElem]

theorem LtcW1.ofWord_word (f : LtcW1) : LtcW1.ofWord f.word = f := by
  simp [LtcW1.ofWord, LtcW1.word, BitVec.extractLsb'_or, bitAt_getLsbD, -BitVec.getLsbD_eq_getElem]

theorem Raw32.ofWord_word (f : Raw32) : Raw32.ofWord f.word = f := by
  simp [Raw32.ofWord, Raw32.word, BitVec.extractLsb'_or, bitAt_getLsbD, -BitVec.getLsbD_eq_getElem]

theorem LtcW0.word_ofWord (w : Word) : (LtcW0.ofWord w).word = w := by
  apply BitVec.eq_of_getLsbD_eq
  intro i hi
  simp only [LtcW0.word, LtcW0.ofWord, BitVec.getLsbD_or, fieldAt_extractLsb'_getLsbD _ _ _ hi, bitAt_getLsbD_getLsbD _ _ hi,
    ← Bool.and_or_distrib_right]
  refine Bool.and_eq_right_iff_imp.mpr fun _ => ?_
  simp only [Bool.or_eq_true, decide_eq_true_eq]
  omega

theorem LtcW1.word_ofWord (w : Word) : (LtcW1.ofWord w).word = w := by
  apply BitVec.eq_of_getLsbD_eq
  intro i hi
  simp only [LtcW1.word, LtcW1.ofWord, BitVec.getLsbD_or, fieldAt_extractLsb'_getLsbD _ _ _ hi, bitAt_getLsbD_getLsbD _ _ hi,
    ← Bool.and_or_distrib_right]
  refine Bool.and_eq_right_iff_imp.mpr fun _ => ?_
  simp only [Bool.or_eq_true, decide_eq_true_eq]
  omega

theorem Raw32.word_ofWord (w : Word) : (Raw32.ofWord w).word = w := by
  apply BitVec.eq_of_getLsbD_eq
  intro i hi
  simp only [Raw32.word, Raw32.ofWord, BitVec.getLsbD_or, fieldAt_extractLsb'_getLsbD _ _ _ hi, bitAt_getLsbD_getLsbD _ _ hi,
    ← Bool.and_or_distrib_right]
  refine Bool.and_eq_right_iff_imp.mpr fun _ => ?_
  simp only [Bool.or_eq_true, decide_eq_true_eq]
  omega

/-- Settles O11: layout by layout, both ways. -/
theorem wordLayoutsRoundTrip : Obligations.WordLayoutsRoundTrip :=
  ⟨LtcW0.ofWord_word, LtcW0.word_ofWord, LtcW1.ofWord_word, LtcW1.word_ofWord, Raw32.ofWord_word, Raw32.word_ofWord⟩

end Sys2Proof
end

section
/-! PROOF. Encoding (30_encoding.md): what the decoder reads back from an encoding (R112, R113), and what it reads at all
(R104). -/

namespace Sys2Proof

/-! ### The decoder after the encoder -/

theorem natAbs_lt_of_periodWf {p : Option Int} (h : p.all periodWf = true) : ∀ x, p = some x → x.natAbs < 2 ^ 64 := by
  rintro x rfl
  simpa [periodWf] using h

/-- A natural operand of 32 bits stands in four bytes. -/
theorem readNat_four_natBytes {n : Nat} (h : n < 2 ^ 32) (rest : List Byte) :
    readNat 4 (natBytes 4 n ++ rest) = some (n, rest) := readNat_natBytes 4 n rest (by omega)

/-- An operation is read back from its code and its operand bytes, operand by operand. -/
theorem decode_op_encode {i : Instr} (hi : i.wf = true) (hf : i.form = .op) (rest : List Byte) :
    decode .op (encode i ++ rest) = some (i, rest) := by
  cases i with
  | txFrame | rxPoll | mainFire | safeFire | cancelDither | stop | lineTxPop => rfl
  | nextFrame t | prevFrame t | toRaw t | toAscii t | readRawStable t =>
    simp [encode, decode, decodeOp, readFile_fileBytes]
  | acquire l | release l => simp [encode, decode, decodeOp, readLock_lockBytes]
  | setFpsDf t fps df =>
    simp [encode, decode, decodeOp, readFile_fileBytes, readRateCode_byte, readBit_bitBytes, -BitVec.ofNat_toNat]
  | loadTc t hh mm ss ff =>
    simp only [Instr.wf, Bool.and_eq_true, decide_eq_true_eq] at hi
    obtain ⟨⟨⟨hhh, hmm⟩, hss⟩, hff⟩ := hi
    simp [encode, decode, decodeOp, readFile_fileBytes, readNat_four_natBytes hhh, readNat_four_natBytes hmm,
      readNat_four_natBytes hss, readNat_four_natBytes hff]
  | fromAscii t s =>
    have hs : s.length < 2 ^ 8 := by simpa [Instr.wf] using hi
    simp [encode, decode, decodeOp, readFile_fileBytes, readString_stringBytes hs]
  | setUb t n1 n2 n3 n4 n5 n6 n7 n8 =>
    simp [encode, decode, decodeOp, readFile_fileBytes, readNibble_nibbleBytes]
  | setFlags t cf clk bgf0 bgf2 =>
    simp [encode, decode, decodeOp, readFile_fileBytes, readBit_bitBytes]
  | encPacket b => simp [encode, decode, decodeOp, readBit_bitBytes]
  | decPacket w0 w1 | decPacket3 x0 x1 x2 | lineRxPush w => simp [encode, decode, decodeOp, readWord_wordBytes]
  | decFrame80 w0 w1 s16 => simp [encode, decode, decodeOp, readWord_wordBytes, readHalf_halfBytes]
  | microAdjust c p | loadCal c p =>
    simp only [Instr.wf, Bool.and_eq_true] at hi
    obtain ⟨hc, hp⟩ := hi
    simp [encode, decode, decodeOp, readCal_calBytes hc, readOptInt_optIntBytes (natAbs_lt_of_periodWf hp)]
  | start m | setMode m => simp [encode, decode, decodeOp, readMode_modeBytes (show m.wf = true from hi)]
  | jamLoad k =>
    have hk : k < 2 ^ 32 := by simpa [Instr.wf] using hi
    simp [encode, decode, decodeOp, readNat_four_natBytes hk]
  | ltcW0 _ | ltcW1 _ | p3X0 _ | p3X1 _ _ | p3X2 _ | sync16 | raw32 _ => cases hf

/-- A data format is read back from the bytes of its word, under its own form. -/
theorem decode_encode_of_data {i : Instr} (hf : i.form ≠ .op) (rest : List Byte) :
    decode i.form (encode i ++ rest) = some (i, rest) := by
  cases i with
  | ltcW0 f => simp [encode, decode, Instr.form, readWord_wordBytes, LtcW0.ofWord_word]
  | ltcW1 f => simp [encode, decode, Instr.form, readWord_wordBytes, LtcW1.ofWord_word]
  | raw32 f => simp [encode, decode, Instr.form, readWord_wordBytes, Raw32.ofWord_word]
  | p3X0 _ | p3X1 _ _ | p3X2 _ => simp [encode, decode, Instr.form, readWord_wordBytes]
  | sync16 => simp [encode, decode, Instr.form, readHalf_halfBytes]
  | _ => exact absurd rfl hf

/-- Settles O1: an operation stands in the operation form, a data format in another. -/
theorem decodeOfEncode : Obligations.DecodeOfEncode := by
  unfold Obligations.DecodeOfEncode
  intro i rest hi
  by_cases hf : i.form = .op
  · rw [hf]
    exact decode_op_encode hi hf rest
  · exact decode_encode_of_data hf rest

/-! ### What the decoder reads at all

The readers of the operands and the decoder are put together from one another, and what is said of an answer is put together the
same way. -/

/-- The answer of a reader at `bs`, when it gives one, is a value of `P` and was read from the front of `bs`. -/
def Reads {α : Type} (P : α → Prop) (bs : List Byte) (answer : Option (α × List Byte)) : Prop :=
  ∀ a rest, answer = some (a, rest) → P a ∧ ∃ used, bs = used ++ rest

namespace Reads

variable {α β : Type} {P : α → Prop} {Q : β → Prop} {bs : List Byte} {answer : Option (α × List Byte)}

theorem done {a : α} (h : P a) : Reads P bs (some (a, bs)) := by
  rintro b rest ⟨⟩
  exact ⟨h, [], rfl⟩

theorem nothing : Reads P bs none := nofun

theorem cons {b : Byte} (h : Reads P bs answer) : Reads P (b :: bs) answer := by
  intro a rest e
  obtain ⟨hPa, used, rfl⟩ := h a rest e
  exact ⟨hPa, b :: used, rfl⟩

theorem bind {k : α × List Byte → Option (β × List Byte)} (h : Reads P bs answer)
    (hk : ∀ a mid, P a → Reads Q mid (k (a, mid))) : Reads Q bs (answer >>= k) := by
  intro b rest e
  obtain ⟨⟨a, mid⟩, ha, hb⟩ := Option.bind_eq_some_iff.mp e
  obtain ⟨hPa, front, rfl⟩ := h a mid ha
  obtain ⟨hQb, back, rfl⟩ := hk a mid hPa b rest hb
  exact ⟨hQb, front ++ back, (List.append_assoc ..).symm⟩

end Reads

theorem readNat_reads (k : Nat) (bs : List Byte) : Reads (· < 256 ^ k) bs (readNat k bs) := fun _ _ h => readNat_some k h

theorem readBit_reads (bs : List Byte) : Reads (fun _ => True) bs (readBit bs) := by
  unfold readBit
  split
  · exact .cons (.done trivial)
  · exact .cons (.done trivial)
  · exact .nothing

theorem readFile_reads (bs : List Byte) : Reads (fun _ => True) bs (readFile bs) := by
  unfold readFile
  split
  · exact .cons (.done trivial)
  · exact .cons (.done trivial)
  · exact .nothing

theorem readLock_reads (bs : List Byte) : Reads (fun _ => True) bs (readLock bs) := by
  unfold readLock
  split
  · exact .cons (.done trivial)
  · exact .cons (.done trivial)
  · exact .cons (.done trivial)
  · exact .nothing

theorem readNibble_reads (bs : List Byte) : Reads (fun _ => True) bs (readNibble bs) := by
  unfold readNibble
  split
  · split
    · exact .cons (.done trivial)
    · exact .nothing
  · exact .nothing

theorem readRateCode_reads (bs : List Byte) : Reads (fun _ => True) bs (readRateCode bs) := by
  unfold readRateCode
  split
  · split
    · exact .cons (.done trivial)
    · exact .nothing
  · exact .nothing

theorem readWord_reads (bs : List Byte) : Reads (fun _ => True) bs (readWord bs) :=
  (readNat_reads 4 _).bind fun _ _ _ => .done trivial

theorem readHalf_reads (bs : List Byte) : Reads (fun _ => True) bs (readHalf bs) :=
  (readNat_reads 2 _).bind fun _ _ _ => .done trivial

theorem readInt_reads (bs : List Byte) : Reads (·.natAbs < 2 ^ 64) bs (readInt bs) :=
  (readBit_reads _).bind fun _ _ _ => (readNat_reads 8 _).bind fun _ _ hn => .done (by split <;> omega)

theorem readOptInt_reads (bs : List Byte) : Reads (·.all periodWf = true) bs (readOptInt bs) :=
  (readBit_reads _).bind fun present _ _ => by
    cases present with
    | false => exact .done rfl
    | true => exact (readInt_reads _).bind fun _ _ hp => .done (decide_eq_true hp)

/-- Reducing a fraction makes neither its numerator nor its denominator larger. -/
theorem mkRat_wf {num : Int} {den : Nat} (hn : num.natAbs < 2 ^ 64) (hd : den < 2 ^ 64) :
    (CalArg.finite (mkRat num (den + 1))).wf = true := by
  have hnum := Int.natAbs_ediv_le_natAbs num ((den + 1).gcd num.natAbs)
  have hden := Nat.div_le_self (den + 1) ((den + 1).gcd num.natAbs)
  simp only [CalArg.wf, Rat.num_mkRat, Rat.den_mkRat, Nat.succ_ne_zero, if_false, Bool.and_eq_true, decide_eq_true_eq]
  exact ⟨by omega, by omega⟩

theorem readCal_reads (bs : List Byte) : Reads (·.wf = true) bs (readCal bs) := by
  unfold readCal
  split
  · exact .cons ((readInt_reads _).bind fun _ _ hn => (readNat_reads 8 _).bind fun _ _ hd => .done (mkRat_wf hn hd))
  · exact .cons (.done rfl)
  · exact .cons (.done rfl)
  · exact .cons (.done rfl)
  · exact .nothing

/-- A tag that is none of the four tags of the modes. -/
theorem four_le_of_tag {tag : Byte} (h0 : tag ≠ 0#8) (h1 : tag ≠ 1#8) (h2 : tag ≠ 2#8) (h3 : tag ≠ 3#8) :
    4 ≤ tag.toNat := by
  bv_omega

theorem readMode_reads (bs : List Byte) : Reads (·.wf = true) bs (readMode bs) := by
  unfold readMode
  split
  · exact .cons (.done rfl)
  · exact .cons (.done rfl)
  · exact .cons (.done rfl)
  · exact .cons ((readNat_reads 4 _).bind fun _ _ hn => .done (decide_eq_true hn))
  · next tag _ h0 h1 h2 h3 =>
    exact .cons (.done (decide_eq_true (four_le_of_tag h0 h1 h2 h3)))
  · exact .nothing

theorem readString_reads (bs : List Byte) : Reads (·.length < 2 ^ 8) bs (readString bs) := by
  unfold readString
  split
  · next n bs =>
    split
    · rintro _ _ ⟨⟩
      have := n.isLt
      exact ⟨by simp only [List.length_take]; omega, n :: bs.take n.toNat, by simp⟩
    · exact .nothing
  · exact .nothing

/-- One arm for each operation code, in the order of R112's table. -/
theorem decodeOp_reads (code : Byte) (bs : List Byte) :
    Reads (fun i => i.wf = true ∧ i.form = .op) bs (decodeOp code bs) := by
  unfold decodeOp
  split
  · exact (readFile_reads _).bind fun _ _ _ => (readRateCode_reads _).bind fun _ _ _ =>
      (readBit_reads _).bind fun _ _ _ => .done ⟨rfl, rfl⟩
  · exact (readFile_reads _).bind fun _ _ _ => (readNat_reads 4 _).bind fun _ _ hh => (readNat_reads 4 _).bind fun _ _ hm =>
      (readNat_reads 4 _).bind fun _ _ hs => (readNat_reads 4 _).bind fun _ _ hf =>
      .done ⟨by simp only [Instr.wf, Bool.and_eq_true, decide_eq_true_eq]; omega, rfl⟩
  · exact (readFile_reads _).bind fun _ _ _ => .done ⟨rfl, rfl⟩
  · exact (readFile_reads _).bind fun _ _ _ => .done ⟨rfl, rfl⟩
  · exact (readFile_reads _).bind fun _ _ _ => .done ⟨rfl, rfl⟩
  · exact (readFile_reads _).bind fun _ _ _ => .done ⟨rfl, rfl⟩
  · exact (readFile_reads _).bind fun _ _ _ => (readString_reads _).bind fun _ _ hs => .done ⟨decide_eq_true hs, rfl⟩
  · exact (readFile_reads _).bind fun _ _ _ => (readNibble_reads _).bind fun _ _ _ => (readNibble_reads _).bind fun _ _ _ =>
      (readNibble_reads _).bind fun _ _ _ => (readNibble_reads _).bind fun _ _ _ => (readNibble_reads _).bind fun _ _ _ =>
      (readNibble_reads _).bind fun _ _ _ => (readNibble_reads _).bind fun _ _ _ => (readNibble_reads _).bind fun _ _ _ =>
      .done ⟨rfl, rfl⟩
  · exact (readFile_reads _).bind fun _ _ _ => (readBit_reads _).bind fun _ _ _ =>
      (readBit_reads _).bind fun _ _ _ => (readBit_reads _).bind fun _ _ _ =>
      (readBit_reads _).bind fun _ _ _ => .done ⟨rfl, rfl⟩
  · exact (readFile_reads _).bind fun _ _ _ => .done ⟨rfl, rfl⟩
  · exact (readBit_reads _).bind fun _ _ _ => .done ⟨rfl, rfl⟩
  · exact .done ⟨rfl, rfl⟩
  · exact (readWord_reads _).bind fun _ _ _ => (readWord_reads _).bind fun _ _ _ => .done ⟨rfl, rfl⟩
  · exact (readWord_reads _).bind fun _ _ _ => (readWord_reads _).bind fun _ _ _ => (readWord_reads _).bind fun _ _ _ =>
      .done ⟨rfl, rfl⟩
  · exact (readWord_reads _).bind fun _ _ _ => (readWord_reads _).bind fun _ _ _ => (readHalf_reads _).bind fun _ _ _ =>
      .done ⟨rfl, rfl⟩
  · exact .done ⟨rfl, rfl⟩
  · exact (readCal_reads _).bind fun _ _ hc => (readOptInt_reads _).bind fun _ _ hp =>
      .done ⟨Bool.and_eq_true_iff.mpr ⟨hc, hp⟩, rfl⟩
  · exact .done ⟨rfl, rfl⟩
  · exact .done ⟨rfl, rfl⟩
  · exact .done ⟨rfl, rfl⟩
  · exact (readCal_reads _).bind fun _ _ hc => (readOptInt_reads _).bind fun _ _ hp =>
      .done ⟨Bool.and_eq_true_iff.mpr ⟨hc, hp⟩, rfl⟩
  · exact (readMode_reads _).bind fun _ _ hm => .done ⟨hm, rfl⟩
  · exact .done ⟨rfl, rfl⟩
  · exact (readMode_reads _).bind fun _ _ hm => .done ⟨hm, rfl⟩
  · exact (readLock_reads _).bind fun _ _ _ => .done ⟨rfl, rfl⟩
  · exact (readLock_reads _).bind fun _ _ _ => .done ⟨rfl, rfl⟩
  · exact (readNat_reads 4 _).bind fun _ _ hk => .done ⟨decide_eq_true hk, rfl⟩
  · exact .done ⟨rfl, rfl⟩
  · exact (readWord_reads _).bind fun _ _ _ => .done ⟨rfl, rfl⟩
  · exact .nothing

theorem decode_reads (form : Form) (bs : List Byte) :
    Reads (fun i => i.wf = true ∧ i.form = form) bs (decode form bs) := by
  cases form with
  | op =>
    cases bs with
    | nil => exact .nothing
    | cons code bs => exact .cons (decodeOp_reads code bs)
  | w0 | w1 | x1 | raw => exact (readWord_reads _).bind fun _ _ _ => .done ⟨rfl, rfl⟩
  | x0 | x2 =>
    refine (readWord_reads _).bind fun w _ _ => ?_
    dsimp only
    split
    · exact .done ⟨rfl, rfl⟩
    · exact .nothing
  | sync =>
    refine (readHalf_reads _).bind fun h _ _ => ?_
    dsimp only
    split
    · exact .done ⟨rfl, rfl⟩
    · exact .nothing

/-- Settles O2: by what the decoder reads, put together from what each operand reader reads. -/
theorem decodedIsWellFormed : Obligations.DecodedIsWellFormed := by
  unfold Obligations.DecodedIsWellFormed
  intro form bytes rest i h
  obtain ⟨⟨hwf, hform⟩, hused⟩ := decode_reads form bytes i rest h
  exact ⟨hwf, hform, hused⟩

end Sys2Proof
end

section
/-! PROOF. Encoding (30_encoding.md): bytes and words that are read as no operation (R112), and those that 95_test_vectors.md
reads (R92, R93, R96, R102, R105). -/

namespace Sys2Proof.Machine

/-- The codes that 30_encoding.md R112 lists. -/
def listedCodes : List Byte :=
  [0x01#8, 0x02#8, 0x03#8, 0x04#8, 0x05#8, 0x06#8, 0x07#8, 0x08#8, 0x09#8, 0x0A#8, 0x10#8, 0x11#8, 0x18#8, 0x19#8,
    0x1A#8, 0x1B#8, 0x20#8, 0x21#8, 0x22#8, 0x23#8, 0x24#8, 0x30#8, 0x31#8, 0x32#8, 0x33#8, 0x34#8, 0x35#8, 0x40#8, 0x41#8]

/-- Every arm of the decoder but the last is of a listed code. -/
theorem decodeOp_of_unlisted {code : Byte} (h : code ∉ listedCodes) (bs : List Byte) : decodeOp code bs = none := by
  unfold decodeOp
  split
  case h_30 => rfl
  all_goals exact absurd (by decide) h

/-- Bytes that are read as no operation are refused when their agent may take its step. -/
theorem step_of_reserved {s : State} {t : Turn} {turns : List Turn} {items : List Item} {form : Form} {bytes : List Byte}
    (hs : s.sched = t :: turns) (hw : s.inProgress = none ∨ s.inProgress = some t.agent)
    (hp : takeFirst t.agent s.port = some (⟨t.agent, .op form bytes⟩, items)) (hd : decode form bytes = none) :
    step s = .refused .reservedCode := by
  rw [step_of_sched_cons hs]
  refine runTurn_of_refused hp ((mayAct_iff _ _).mpr (.inl hw)) ?_
  simp only [perform, hd]

/-- Settles O3: no arm of the decoder is of an unlisted code, and the arm of `exec` for each data format refuses it. -/
theorem unlistedOperationsRefused : Obligations.UnlistedOperationsRefused := by
  unfold Obligations.UnlistedOperationsRefused
  refine ⟨fun code bytes hc => ?codes, fun s f g v w r => ?formats⟩
  case codes =>
    have hd : decode .op (code :: bytes) = none := decodeOp_of_unlisted hc bytes
    exact ⟨hd, fun s t turns items hs hw hp => step_of_reserved hs hw hp hd⟩
  case formats => exact ⟨rfl, rfl, rfl, rfl, rfl, rfl, rfl⟩

/-- Settles O4: the decoder evaluated on each word. -/
theorem decodeSanityWords : Obligations.DecodeSanityWords := by
  unfold Obligations.DecodeSanityWords
  decide

end Sys2Proof.Machine
end

section
/-! PROOF. Encoding (30_encoding.md): the encoded frame, its fields (R92, R93, R98), its parity (R100), and the packet on the
line (R96, R102). -/

namespace Sys2Proof

theorem extractLsb'_congr {v w : Word} {k n : Nat} (h : ∀ i, k ≤ i → i < k + n → v.getLsbD i = w.getLsbD i) :
    v.extractLsb' k n = w.extractLsb' k n := by
  apply BitVec.eq_of_getLsbD_eq
  intro i hi
  rw [BitVec.getLsbD_extractLsb', BitVec.getLsbD_extractLsb', h (k + i) (by omega) (by omega)]

/-- Two words that agree but at the parity bit of W0 have the same fields but for that bit. -/
theorem LtcW0.ofWord_of_agree {v w : Word} (h : ∀ i, i ≠ 27 → v.getLsbD i = w.getLsbD i) :
    LtcW0.ofWord v = { LtcW0.ofWord w with f27 := v.getLsbD 27 } := by
  have slice : ∀ k n, k + n ≤ 27 ∨ 28 ≤ k → v.extractLsb' k n = w.extractLsb' k n := fun k n hk =>
    extractLsb'_congr fun i _ _ => h i (by omega)
  simp [LtcW0.ofWord, slice, h, -BitVec.getLsbD_eq_getElem]

/-- Two words that agree but at the parity bit of W1 have the same fields but for that bit. -/
theorem LtcW1.ofWord_of_agree {v w : Word} (h : ∀ i, i ≠ 27 → v.getLsbD i = w.getLsbD i) :
    LtcW1.ofWord v = { LtcW1.ofWord w with f59 := v.getLsbD 27 } := by
  have slice : ∀ k n, k + n ≤ 27 ∨ 28 ≤ k → v.extractLsb' k n = w.extractLsb' k n := fun k n hk =>
    extractLsb'_congr fun i _ _ => h i (by omega)
  simp [LtcW1.ofWord, slice, h, -BitVec.getLsbD_eq_getElem]

end Sys2Proof

namespace Sys2Proof.Machine

/-! ### Decimal digits in their fields -/

theorem unitsDigit_toNat (v : Nat) : (unitsDigit v).toNat = v % 10 :=
  Nat.mod_eq_of_lt ((Nat.mod_lt v (by decide)).trans (by decide))

theorem tensDigit_toNat {w v : Nat} (h : v / 10 < 2 ^ w) : (tensDigit w v).toNat = v / 10 := Nat.mod_eq_of_lt h

/-! ### The fields of the encoded words

The parity bit is bit 27 of one of the two words: each encoded word holds the fields that the encoder gave it, but for that
bit. -/

theorem ofWord_encParity0 (p : Params) (S : Timecode) :
    LtcW0.ofWord (encParity p S).1 = { encFields0 p S with f27 := (encParity p S).1.getLsbD 27 } := by
  rw [LtcW0.ofWord_of_agree fun i hi => encParity_bits0 p S (.inl hi), encData, LtcW0.ofWord_word]

theorem ofWord_encParity1 (p : Params) (S : Timecode) :
    LtcW1.ofWord (encParity p S).2 = { encFields1 p S with f59 := (encParity p S).2.getLsbD 27 } := by
  rw [LtcW1.ofWord_of_agree fun i hi => encParity_bits1 p S (.inl hi), encData, LtcW1.ofWord_word]

theorem encParity_bit27_of_fam25 {p : Params} {S : Timecode} (h : fam25 p S.fps = true) :
    (encParity p S).1.getLsbD 27 = S.bgf0 := by
  have fields := congrArg LtcW0.f27 (LtcW0.ofWord_word (encFields0 p S))
  rw [encParity_bits0 p S (.inr h)]
  exact fields.trans (if_pos h)

theorem encParity_bit59_of_not_fam25 {p : Params} {S : Timecode} (h : fam25 p S.fps = false) :
    (encParity p S).2.getLsbD 27 = S.bgf2 := by
  have fields := congrArg LtcW1.f59 (LtcW1.ofWord_word (encFields1 p S))
  rw [encParity_bits1 p S (.inr h)]
  exact fields.trans (if_neg (Bool.eq_false_iff.mp h))

/-! ### The parity of the encoded frame (30_encoding.md R100) -/

/-- The parity bit is set where the frame without it has an odd number of ones, in a position that is clear. -/
theorem encParity_framePop_even (p : Params) (S : Timecode) : framePop (encParity p S).1 (encParity p S).2 % 2 = 0 := by
  unfold encParity
  dsimp only
  split
  case isTrue h => exact beq_iff_eq.mp h
  case isFalse h =>
    have odd : framePop (encData p S).1 (encData p S).2 % 2 ≠ 0 := mt beq_iff_eq.mpr h
    unfold framePop at odd ⊢
    split
    case isTrue hf =>
      dsimp only
      rw [popcount_setBit (by decide) (encData_parity_clear1 hf)]
      omega
    case isFalse hf =>
      dsimp only
      rw [popcount_setBit (by decide) (encData_parity_clear0 (Bool.eq_false_iff.mpr hf))]
      omega

theorem dataBits_count_true (w0 w1 : Word) : (dataBits w0 w1).count true = popcount w0 + popcount w1 := by
  rw [dataBits, List.count_append, lineBits_count, lineBits_count]

theorem frameBits_count_true (w0 w1 : Word) : (frameBits w0 w1).count true = framePop w0 w1 := by
  rw [frameBits, List.count_append, dataBits_count_true]
  rfl

theorem frameBits_length (w0 w1 : Word) : (frameBits w0 w1).length = 80 := by
  simp [frameBits, dataBits, lineBits, syncBits]

/-- Settles O13: the ones of a frame are those of its words, and the zeros are the rest of its 80 bits. -/
theorem frameParityIsEven : Obligations.FrameParityIsEven := by
  unfold Obligations.FrameParityIsEven
  intro p S
  have even := encParity_framePop_even p S
  have ones := frameBits_count_true (encParity p S).1 (encParity p S).2
  have data := dataBits_count_true (encParity p S).1 (encParity p S).2
  have length := frameBits_length (encParity p S).1 (encParity p S).2
  have both := (frameBits (encParity p S).1 (encParity p S).2).count_true_add_count_false
  rw [framePop, syncPop] at even ones
  refine ⟨even, ?_, length, ?_, ?_, ?_⟩ <;> omega

/-- Settles O12: by the fields of the two encoded words, each a slice at its place, and the digits of a legal time. -/
theorem encodedFieldPositions : Obligations.EncodedFieldPositions := by
  unfold Obligations.EncodedFieldPositions
  intro p S hl
  obtain ⟨hhh, hmm, hss, hff⟩ := hl
  have hn := (framesPerSecond_bounds S.fps).2
  have f := ofWord_encParity0 p S
  have g := ofWord_encParity1 p S
  simp only [LtcW0.ofWord, encFields0, LtcW0.mk.injEq] at f
  simp only [LtcW1.ofWord, encFields1, LtcW1.mk.injEq] at g
  obtain ⟨ffUnits, uf1, ffTens, df, cf, uf2, ssUnits, uf3, ssTens, -, uf4⟩ := f
  obtain ⟨mmUnits, uf5, mmTens, f43, uf6, hhUnits, uf7, hhTens, clk, -, uf8⟩ := g
  refine ⟨⟨?_, uf1, ?_, df, cf, uf2, ?_, uf3, ?_, uf4⟩, ⟨?_, uf5, ?_, uf6, ?_, uf7, ?_, clk, uf8⟩, fun h => ?_, fun h => ?_,
    encParity_framePop_even p S⟩
  · rw [ffUnits]; exact unitsDigit_toNat _
  · rw [ffTens]; exact tensDigit_toNat (by omega)
  · rw [ssUnits]; exact unitsDigit_toNat _
  · rw [ssTens]; exact tensDigit_toNat (by omega)
  · rw [mmUnits]; exact unitsDigit_toNat _
  · rw [mmTens]; exact tensDigit_toNat (by omega)
  · rw [hhUnits]; exact unitsDigit_toNat _
  · rw [hhTens]; exact tensDigit_toNat (by omega)
  · exact ⟨encParity_bit27_of_fam25 h, f43.trans (if_pos h)⟩
  · exact ⟨f43.trans (if_neg (Bool.eq_false_iff.mp h)), encParity_bit59_of_not_fam25 h⟩

/-! ### The packet on the line -/

/-- The 16 bits of a half in line order, bit 0 first. -/
def halfBits (h : Half) : List Bool := (List.range 16).map h.getLsbD

theorem halfBits_syncPattern : halfBits syncPattern = syncBits := rfl

/-- A word goes out low half first (20_memory.md R68). -/
theorem lineBits_eq_halfBits (w : Word) : lineBits w = halfBits (lowHalf w) ++ halfBits (highHalf w) := by
  have halves : List.range 32 = List.range 16 ++ (List.range 16).map (16 + ·) := by
    rw [← List.range_add]
  rw [lineBits, halves, List.map_append, List.map_map]
  congr 1
  · refine List.map_congr_left fun i hi => ?_
    rw [lowHalf, BitVec.getLsbD_extractLsb']
    simp [List.mem_range.mp hi]
  · refine List.map_congr_left fun i hi => ?_
    rw [highHalf, BitVec.getLsbD_extractLsb']
    simp [List.mem_range.mp hi]

theorem packet3_lineBits (w0 w1 : Word) : (packet3 w0 w1).flatMap lineBits = syncBits ++ dataBits w0 w1 ++ syncBits := by
  simp only [packet3, List.flatMap_cons, List.flatMap_nil, dataBits, lineBits_eq_halfBits, lowHalf_wordOfHalves,
    highHalf_wordOfHalves, halfBits_syncPattern, List.append_assoc, List.append_nil]

/-- Settles O14: the sync pattern by evaluation, the packet's words as joined halves. -/
theorem syncPacketOnTheLine : Obligations.SyncPacketOnTheLine := by
  unfold Obligations.SyncPacketOnTheLine
  refine ⟨by decide, fun w0 w1 => ⟨?words, packet3_lineBits w0 w1⟩⟩
  case words =>
    rw [packet3, wordOfHalves_eq_or, wordOfHalves_eq_or, wordOfHalves_eq_or]
    rfl

end Sys2Proof.Machine
end

section
/-! PROOF. Timecode value operations (40_timecode_ops.md): what a register file holds after a load or a change of rate (R132, R133),
and that an operation that succeeds leaves a legal file legal (R145). -/

namespace Sys2Proof.Machine

/-! ### A loaded time -/

theorem Timecode.Loadable.fits {T : Timecode} {v : Time} (h : T.Loadable v) : v.Fits :=
  h.1.fits (framesPerSecond_bounds T.fps).2

theorem Timecode.Loadable.setTime_time {T : Timecode} {v : Time} (h : T.Loadable v) : (T.setTime v).time = v :=
  Timecode.time_setTime h.fits T

/-- A file that a loadable time is stored into is legal where its drop-frame flag is allowed. -/
theorem Timecode.Loadable.legalFile {T : Timecode} {v : Time} (h : T.Loadable v)
    (hd : T.df = true → allowsDropFrame T.fps = true) : (T.setTime v).LegalFile := by
  refine ⟨?_, hd⟩
  rw [h.setTime_time]
  exact h

/-! ### REVALIDATE (R132) -/

/-- REVALIDATE writes the frame number alone: kept where the rate has it and free where it has not, and 2 for a dropped one. -/
theorem revalidate_eq (k : Nat) (T : Timecode) : ∃ ff : BitVec 5,
    (T.ff.toNat < framesPerSecond T.fps → ff = T.ff) ∧ ff.toNat < framesPerSecond T.fps ∧
    revalidate k T = { T with
      ff := if T.df = true ∧ T.ss = 0 ∧ ff.toNat < 2 ∧ T.mm.toNat % 10 ≠ 0 then 2 else ff } := by
  have hn := framesPerSecond_bounds T.fps
  obtain ⟨f, hlt, hkeep, he⟩ : ∃ f, f < framesPerSecond T.fps ∧ (T.ff.toNat < framesPerSecond T.fps → f = T.ff.toNat) ∧
      revalidate k T = T.setTime (skipDropped T.df { T.time with ff := f }) := by
    by_cases hf : T.time.ff ≥ framesPerSecond T.fps
    · exact ⟨_, Nat.mod_lt (Config.freeNat k) (by omega), fun h => absurd h (Nat.not_lt.mpr hf), by simp [revalidate, hf]⟩
    · exact ⟨_, Nat.not_le.mp hf, fun _ => rfl, by simp [revalidate, hf]⟩
  have hto : (BitVec.ofNat 5 f).toNat = f := Nat.mod_eq_of_lt (by omega)
  have hss : T.ss = 0 ↔ T.ss.toNat = 0 := BitVec.toNat_eq
  refine ⟨BitVec.ofNat 5 f, fun h => by rw [hkeep h, BitVec.ofNat_toNat, BitVec.setWidth_eq], by rwa [hto], ?_⟩
  rw [hto]
  by_cases hd : T.df = true ∧ T.ss = 0 ∧ f < 2 ∧ T.mm.toNat % 10 ≠ 0
  · rw [if_pos hd, he, show skipDropped T.df { T.time with ff := f } = { T.time with ff := 2 } from
      if_pos ⟨hd.1, hss.mp hd.2.1, hd.2.2⟩]
    simp [Timecode.setTime, Timecode.time]
  · rw [if_neg hd, he, skipDropped_of_loadable fun h => hd ⟨h.1, hss.mpr h.2.1, h.2.2⟩]
    simp [Timecode.setTime, Timecode.time]

/-- After SET_FPS_DF the frame number is one of the new rate. -/
theorem revalidate_ff_lt (k : Nat) (T : Timecode) : (revalidate k T).time.ff < framesPerSecond (revalidate k T).fps := by
  obtain ⟨ff, -, hlt, e⟩ := revalidate_eq k T
  have hn := framesPerSecond_bounds T.fps
  rw [e]
  show BitVec.toNat (ite _ _ _) < framesPerSecond T.fps
  split
  · exact Nat.lt_of_lt_of_le (by decide) hn.1
  · exact hlt

/-- After SET_FPS_DF a file is legal whose hours, minutes and seconds were. -/
theorem revalidate_legalFile (k : Nat) {T : Timecode} (hh : T.time.hh < 24) (hm : T.time.mm < 60) (hs : T.time.ss < 60)
    (hd : T.df = true → allowsDropFrame T.fps = true) : (revalidate k T).LegalFile := by
  have hf := revalidate_ff_lt k T
  obtain ⟨ff, -, hlt, e⟩ := revalidate_eq k T
  rw [e] at hf ⊢
  refine ⟨⟨⟨hh, hm, hs, hf⟩, ?_⟩, hd⟩
  rintro ⟨h1, h2, h3, h4⟩
  change BitVec.toNat (ite _ _ _) < 2 at h3
  split at h3
  · exact absurd h3 (by decide)
  · next hn => exact hn ⟨h1, BitVec.toNat_eq.mpr h2, h3, h4⟩

theorem acceptRate_some {code : BitVec 3} {df : Bool} {fps : Rate} (h : acceptRate code df = some fps) :
    rateOfCode code = some fps ∧ (df = true → allowsDropFrame fps = true) := by
  unfold acceptRate at h
  split at h
  · next r hr =>
    split at h
    · next hd =>
      cases h
      exact ⟨hr, fun hdf => hd.resolve_left (by simp [hdf])⟩
    · cases h
  · cases h

/-! ### What keeps a legal file legal (R145) -/

/-- What one frame forward keeps, any number of them keep. -/
theorem Timecode.stepN_induction {P : Timecode → Prop} (h : ∀ T : Timecode, P T → P T.next) :
    ∀ (k : Nat) {T : Timecode}, P T → P (Timecode.stepN k T)
  | 0, _, hT => hT
  | k + 1, T, hT => Timecode.stepN_induction h k (h T hT)

/-- What one frame back keeps, any number of them keep. -/
theorem Timecode.prevN_induction {P : Timecode → Prop} (h : ∀ T : Timecode, P T → P T.prev) :
    ∀ (k : Nat) {T : Timecode}, P T → P (Timecode.prevN k T)
  | 0, _, hT => hT
  | k + 1, T, hT => Timecode.prevN_induction h k (h T hT)

theorem Timecode.stepN_legalFile (k : Nat) {T : Timecode} (h : T.LegalFile) : (Timecode.stepN k T).LegalFile :=
  Timecode.stepN_induction (P := Timecode.LegalFile) (fun _ hT => ⟨Timecode.next_loadable hT.1, hT.2⟩) k h

theorem Timecode.prevN_legalFile (k : Nat) {T : Timecode} (h : T.LegalFile) : (Timecode.prevN k T).LegalFile :=
  Timecode.prevN_induction (P := Timecode.LegalFile) (fun _ hT => ⟨Timecode.prev_loadable hT.1, hT.2⟩) k h

/-- A frame number is one of its rate: all that RX promises (42_ltc_decoder.md R200). -/
abbrev Timecode.FrameLegal (T : Timecode) : Prop := T.time.ff < framesPerSecond T.fps

theorem Timecode.next_frameLegal (T : Timecode) : T.next.FrameLegal := by
  unfold Timecode.FrameLegal
  rw [T.next_time]
  exact nextTime_ff_lt (Nat.lt_of_lt_of_le (by decide) (framesPerSecond_bounds T.fps).1)

theorem Timecode.prev_frameLegal {T : Timecode} (h : T.FrameLegal) : T.prev.FrameLegal := by
  unfold Timecode.FrameLegal
  rw [T.prev_time]
  exact prevTime_ff_lt (Nat.lt_of_lt_of_le (by decide) (framesPerSecond_bounds T.fps).1) h

theorem Timecode.stepN_frameLegal (k : Nat) {T : Timecode} (h : T.FrameLegal) : (Timecode.stepN k T).FrameLegal :=
  Timecode.stepN_induction (P := Timecode.FrameLegal) (fun T _ => T.next_frameLegal) k h

theorem Timecode.prevN_frameLegal (k : Nat) {T : Timecode} (h : T.FrameLegal) : (Timecode.prevN k T).FrameLegal :=
  Timecode.prevN_induction (P := Timecode.FrameLegal) (fun _ => Timecode.prev_frameLegal) k h

/-- JAM_LOAD of a value that it accepts leaves TX legal (44_engine_control.md R257). -/
theorem jamCopy_legalFile {R T : Timecode} (h : JamLegal R T) : (jamCopy R T).LegalFile := by
  obtain ⟨hl, hd, hn⟩ := h
  have ht : (jamCopy R T).time = R.time :=
    Timecode.time_setTime (hl.fits (framesPerSecond_bounds T.fps).2) T
  refine ⟨?_, fun hdf => hd.resolve_left (by simpa [jamCopy] using hdf)⟩
  rw [ht]
  exact ⟨hl, hn⟩

/-- A decode that commits leaves a frame number of RX's rate (42_ltc_decoder.md R192). -/
theorem decCommit_frameLegal (p : Params) {w0 w1 : Word} {R : Timecode} (h : frameOk w0 w1 R.fps = true) :
    (decCommit p w0 w1 R).FrameLegal := by
  have hlt : (decTime w0 w1).ff < framesPerSecond R.fps := by simpa [frameOk] using h
  exact Nat.lt_of_le_of_lt (Nat.mod_le _ _) hlt

end Sys2Proof.Machine
end

section
/-! PROOF. Timecode value operations (40_timecode_ops.md): what each delivers and stores (R131 to R142). -/

namespace Sys2Proof.Machine

/-! ### SET_FPS_DF (R131, R132) -/

theorem rateOfCode_eq_some_iff (code : BitVec 3) (fps : Rate) : rateOfCode code = some fps ↔ code = rateCode fps := by
  revert code
  cases fps <;> decide

theorem allowsDropFrame_iff (fps : Rate) : allowsDropFrame fps = true ↔ rateCode fps = 1 ∨ rateCode fps = 5 := by
  cases fps <;> decide

theorem acceptRate_of_allowed {code : BitVec 3} {fps : Rate} {df : Bool} (hc : code = rateCode fps)
    (hd : df = false ∨ code = 1 ∨ code = 5) : acceptRate code df = some fps := by
  rw [hc, ← allowsDropFrame_iff] at hd
  simp [acceptRate, (rateOfCode_eq_some_iff code fps).mpr hc, hd]

theorem acceptRate_of_not_allowed {code : BitVec 3} {df : Bool}
    (h : code = 6 ∨ code = 7 ∨ (df = true ∧ code ≠ 1 ∧ code ≠ 5)) : acceptRate code df = none := by
  revert code
  cases df <;> decide

theorem setFpsDf_of_accepted {s : State} {t : File} {code : BitVec 3} {df : Bool} {fps : Rate}
    (h : acceptRate code df = some fps) : s.setFpsDf t code df = {
      s.setTc t (revalidate s.draws { s.tc t with fps := fps, df := df }) with
      result := .bool true, draws := (s.setFpsDf t code df).draws } := by
  simp [State.setFpsDf, h, State.answer]

theorem setFpsDf_of_rejected {s : State} {t : File} {code : BitVec 3} {df : Bool} (h : acceptRate code df = none) :
    s.setFpsDf t code df = (s.raise .setFpsReject).answer (.bool false) := by
  simp [State.setFpsDf, h]

/-- Settles O17: by the rate that the code and the bit name, and by what REVALIDATE writes. -/
theorem setFpsDfAcceptsOrRejects : Obligations.SetFpsDfAcceptsOrRejects := by
  unfold Obligations.SetFpsDfAcceptsOrRejects
  intro s t code df hp hl
  have he := (exec_setFpsDf s t code df).trans (issue_ready hp hl)
  refine ⟨fun fps hc hd => ?_, fun hrej => ?_⟩
  · have ha := acceptRate_of_allowed hc hd
    obtain ⟨ff, hkeep, hlt, hrev⟩ := revalidate_eq s.opened.draws { s.tc t with fps := fps, df := df }
    refine ⟨_, ff, he, hkeep, hlt, ?_⟩
    rw [setFpsDf_of_accepted ha, State.opened_tc, hrev]
  · rw [he, setFpsDf_of_rejected (acceptRate_of_not_allowed hrej)]
    rfl

/-! ### LOAD_TC (R133) -/

theorem loadTime_of_loadable {s : State} {t : File} {v : Time} (h : (s.tc t).Loadable v) :
    s.loadTime t v = (s.setTc t ((s.tc t).setTime v)).answer (.bool true) := if_pos h

theorem loadTime_of_not_loadable {s : State} {t : File} {v : Time} (h : ¬(s.tc t).Loadable v) :
    s.loadTime t v = (s.raise .loadReject).answer (.bool false) := if_neg h

theorem loadable_iff (T : Timecode) (hh mm ss ff : Nat) : T.Loadable ⟨hh, mm, ss, ff⟩ ↔
    hh < 24 ∧ mm < 60 ∧ ss < 60 ∧ ff < framesPerSecond T.fps ∧ ¬(T.df = true ∧ ss = 0 ∧ ff < 2 ∧ mm % 10 ≠ 0) := by
  simp only [Timecode.Loadable, Time.Legal, Time.Dropped, and_assoc]

/-- Settles O18: a loadable time fits its fields and is read back from them. -/
theorem loadTcStoresOrRejects : Obligations.LoadTcStoresOrRejects := by
  unfold Obligations.LoadTcStoresOrRejects
  intro s t hh mm ss ff hp hl
  have he := (exec_loadTc s t hh mm ss ff).trans (issue_ready hp hl)
  split
  · next h =>
    have hload : (s.opened.tc t).Loadable ⟨hh, mm, ss, ff⟩ := by
      rw [State.opened_tc]
      exact (loadable_iff _ _ _ _ _).mpr h
    have htime := hload.setTime_time
    rw [loadTime_of_loadable hload] at he
    have htc : ((s.opened.setTc t ((s.opened.tc t).setTime ⟨hh, mm, ss, ff⟩)).answer (.bool true)).tc t =
        (s.opened.tc t).setTime ⟨hh, mm, ss, ff⟩ := by cases t <;> rfl
    refine ⟨_, he, ?_⟩
    rw [htc]
    simp only [Timecode.time, Time.mk.injEq] at htime
    obtain ⟨h1, h2, h3, h4⟩ := htime
    refine ⟨h1, h2, h3, h4, ?_⟩
    cases t <;> rfl
  · next h =>
    rw [he, loadTime_of_not_loadable]
    · rfl
    · rw [State.opened_tc, loadable_iff]
      exact h

/-! ### FROM_ASCII (R139) -/

/-- A character is a digit. -/
def isDigit (c : Byte) : Bool := decide (0x30 ≤ c.toNat ∧ c.toNat ≤ 0x39)

/-- The number that two digit characters spell. -/
def twoDigitNum (a b : Byte) : Nat := 10 * (a.toNat - 0x30) + (b.toNat - 0x30)

theorem numOfDigits_of_digits {a b : Byte} (ha : isDigit a = true) (hb : isDigit b = true) :
    numOfDigits a b = some (twoDigitNum a b) := by
  rw [numOfDigits, digitValue, digitValue, if_pos (of_decide_eq_true ha), if_pos (of_decide_eq_true hb), twoDigitNum]

theorem isDigit_of_digitValue {c : Byte} {x : Nat} (h : digitValue c = some x) : isDigit c = true := by
  by_contra hn
  rw [digitValue, if_neg fun hd => hn (decide_eq_true hd)] at h
  cases h

theorem isDigit_of_numOfDigits {a b : Byte} {x : Nat} (h : numOfDigits a b = some x) :
    isDigit a = true ∧ isDigit b = true := by
  unfold numOfDigits at h
  split at h
  · next ha hb => exact ⟨isDigit_of_digitValue ha, isDigit_of_digitValue hb⟩
  · cases h

/-- The strings that FROM_ASCII reads: eleven characters, with digits and separators in their places. -/
abbrev AsciiForm (str : List Byte) : Prop :=
  str.length = 11 ∧ str.getD 2 0 = 0x3A#8 ∧ str.getD 5 0 = 0x3A#8 ∧ (str.getD 8 0 = 0x3A#8 ∨ str.getD 8 0 = 0x2E#8) ∧
    (isDigit (str.getD 0 0) && isDigit (str.getD 1 0) && isDigit (str.getD 3 0) && isDigit (str.getD 4 0) &&
      isDigit (str.getD 6 0) && isDigit (str.getD 7 0) && isDigit (str.getD 9 0) && isDigit (str.getD 10 0)) = true

theorem parseAscii_of_form {str : List Byte} (h : AsciiForm str) : parseAscii str = some
    ⟨twoDigitNum (str.getD 0 0) (str.getD 1 0), twoDigitNum (str.getD 3 0) (str.getD 4 0),
      twoDigitNum (str.getD 6 0) (str.getD 7 0), twoDigitNum (str.getD 9 0) (str.getD 10 0)⟩ := by
  match str, h with
  | [h1, h0, c2, m1, m0, c5, s1, s0, c8, f1, f0], ⟨_, hc2, hc5, hc8, hd⟩ =>
    simp only [Bool.and_eq_true, and_assoc] at hd
    obtain ⟨dh1, dh0, dm1, dm0, ds1, ds0, df1, df0⟩ := hd
    have hh := numOfDigits_of_digits (a := h1) (b := h0) dh1 dh0
    have mm := numOfDigits_of_digits (a := m1) (b := m0) dm1 dm0
    have ss := numOfDigits_of_digits (a := s1) (b := s0) ds1 ds0
    have ff := numOfDigits_of_digits (a := f1) (b := f0) df1 df0
    rw [parseAscii, if_pos ⟨hc2, hc5, hc8⟩, hh, mm, ss, ff]
    rfl

theorem asciiForm_of_parseAscii {str : List Byte} {v : Time} (h : parseAscii str = some v) : AsciiForm str := by
  unfold parseAscii at h
  split at h
  · split at h
    · next hsep =>
      split at h
      · next hh mm ss ff =>
        obtain ⟨hc2, hc5, hc8⟩ := hsep
        refine ⟨rfl, hc2, hc5, hc8, ?_⟩
        simp only [Bool.and_eq_true, and_assoc]
        exact ⟨(isDigit_of_numOfDigits hh).1, (isDigit_of_numOfDigits hh).2, (isDigit_of_numOfDigits mm).1,
          (isDigit_of_numOfDigits mm).2, (isDigit_of_numOfDigits ss).1, (isDigit_of_numOfDigits ss).2,
          (isDigit_of_numOfDigits ff).1, (isDigit_of_numOfDigits ff).2⟩
      · cases h
    · cases h
  · cases h

theorem fromAscii_of_form {s : State} {t : File} {str : List Byte} {v : Time} (h : parseAscii str = some v) :
    s.fromAscii t str = s.loadTime t v := by
  rw [State.fromAscii, h]

theorem fromAscii_of_not_form {s : State} {t : File} {str : List Byte} (h : ¬AsciiForm str) :
    s.fromAscii t str = (s.raise .loadReject).answer (.bool false) := by
  have hnone : parseAscii str = none := Option.eq_none_iff_forall_ne_some.mpr fun v hv => h (asciiForm_of_parseAscii hv)
  rw [State.fromAscii, hnone]

/-- Settles O24: a string is of the form exactly when the model reads a time from it, the one of its digits. -/
theorem fromAsciiLoadsOrRejects : Obligations.FromAsciiLoadsOrRejects := by
  unfold Obligations.FromAsciiLoadsOrRejects
  intro s t str hp hl
  have he := (exec_fromAscii s t str).trans (issue_ready hp hl)
  dsimp only
  split
  · next h =>
    have hform : AsciiForm str := h
    rw [fromAscii_of_form (parseAscii_of_form hform)] at he
    exact ⟨he.trans ((exec_loadTc s t _ _ _ _).trans (issue_ready hp hl)).symm, _, he⟩
  · next h =>
    have hform : ¬AsciiForm str := h
    rw [he, fromAscii_of_not_form hform]
    rfl

/-! ### NEXT_FRAME and PREV_FRAME (R134, R135) -/

/-- The carry chain read from its first test down. -/
theorem carryFrame_eq (n : Nat) (t : Time) : carryFrame n t =
    if t.ff + 1 < n then ⟨t.hh, t.mm, t.ss, t.ff + 1⟩
    else if t.ss + 1 < 60 then ⟨t.hh, t.mm, t.ss + 1, 0⟩
    else if t.mm + 1 < 60 then ⟨t.hh, t.mm + 1, 0, 0⟩
    else if t.hh + 1 < 24 then ⟨t.hh + 1, 0, 0, 0⟩
    else ⟨0, 0, 0, 0⟩ := by
  rcases carryFrame_cases n t with ⟨c1, c⟩ | ⟨c1, c2, c⟩ | ⟨c1, c2, c3, c⟩ | ⟨c1, c2, c3, c4, c⟩ | ⟨c1, c2, c3, c4, c⟩ <;>
    simp [Nat.not_lt.mpr, *]

/-- The backward skip read on the frame number alone. -/
theorem prevTime_eq (n : Nat) (df : Bool) (t : Time) : prevTime n df t = borrowFrame n { t with
    ff := if df = true ∧ t.ss = 0 ∧ t.ff ≤ 2 ∧ t.mm % 10 ≠ 0 then 0 else t.ff } := by
  unfold prevTime
  split <;> rfl

/-- Settles O19: the carry chain and the skip of the model, on a value that fits its fields. -/
theorem nextFrameAdvances : Obligations.NextFrameAdvances := by
  unfold Obligations.NextFrameAdvances
  intro s t hp hl
  refine ⟨_, (exec_nextFrame s t).trans (issue_ready hp hl), ?_, ?_⟩
  · rw [State.setTc_tc, State.opened_tc, Timecode.next_time, nextTime, carryFrame_eq]
    rfl
  · rw [State.setTc_tc, State.opened_tc]
    rfl

/-- Settles O20: the backward skip and the borrow chain of the model, on a value that fits its fields. -/
theorem prevFrameRetreats : Obligations.PrevFrameRetreats := by
  unfold Obligations.PrevFrameRetreats
  intro s t hp hl
  refine ⟨_, (exec_prevFrame s t).trans (issue_ready hp hl), ?_, ?_⟩
  · rw [State.setTc_tc, State.opened_tc, Timecode.prev_time, prevTime_eq]
    rfl
  · rw [State.setTc_tc, State.opened_tc]
    rfl

/-! ### The inverse law (R136) -/

/-- A carry into a dropped frame number lands on the first of its minute: a step from the frame before it would have left a
dropped one. -/
theorem carryFrame_dropped_ff {n : Nat} {t : Time} (hc : (carryFrame n t).Dropped) (ht : ¬t.Dropped) :
    (carryFrame n t).ff = 0 := by
  rcases carryFrame_cases n t with ⟨c1, c⟩ | ⟨c1, c2, c⟩ | ⟨c1, c2, c3, c⟩ | ⟨c1, c2, c3, c4, c⟩ | ⟨c1, c2, c3, c4, c⟩ <;>
    rw [c] at hc ⊢
  simp only [Time.Dropped] at hc ht ⊢
  omega

/-- A carry does not land on frame 2 of a skipped minute. -/
theorem carryFrame_ff_ne_two {n : Nat} {t : Time} (hs : (carryFrame n t).ss = 0)
    (hm : (carryFrame n t).mm % 10 ≠ 0) (ht : ¬t.Dropped) : (carryFrame n t).ff ≠ 2 := by
  rcases carryFrame_cases n t with ⟨c1, c⟩ | ⟨c1, c2, c⟩ | ⟨c1, c2, c3, c⟩ | ⟨c1, c2, c3, c4, c⟩ | ⟨c1, c2, c3, c4, c⟩ <;>
    rw [c] at hs hm ⊢ <;> simp only [Time.Dropped] at * <;> omega

theorem prevTime_of_skipped {n : Nat} {df : Bool} {t : Time} (h : df = true ∧ t.ss = 0 ∧ t.ff ≤ 2 ∧ t.mm % 10 ≠ 0) :
    prevTime n df t = borrowFrame n { t with ff := 0 } := by
  rw [prevTime_eq, if_pos h]

theorem prevTime_of_not_skipped {n : Nat} {df : Bool} {t : Time} (h : ¬(df = true ∧ t.ss = 0 ∧ t.ff ≤ 2 ∧ t.mm % 10 ≠ 0)) :
    prevTime n df t = borrowFrame n t := by
  rw [prevTime_eq, if_neg h]

/-- One frame forward, then back, from a legal, undropped time. -/
theorem prevTime_nextTime {n : Nat} {df : Bool} {t : Time} (hn : 24 ≤ n) (hl : t.Legal n) (hd : ¬(df = true ∧ t.Dropped)) :
    prevTime n df (nextTime n df t) = t := by
  by_cases hc : df = true ∧ (carryFrame n t).Dropped
  · have hff := carryFrame_dropped_ff hc.2 fun h => hd ⟨hc.1, h⟩
    have hnext : nextTime n df t = { carryFrame n t with ff := 2 } := if_pos hc
    obtain ⟨hdf, hss, -, hmm⟩ := hc
    rw [hnext, prevTime_of_skipped (t := { carryFrame n t with ff := 2 }) ⟨hdf, hss, Nat.le_refl 2, hmm⟩]
    show borrowFrame n { carryFrame n t with ff := 0 } = t
    rw [← hff]
    exact borrowFrame_carryFrame hn hl
  · have hnext : nextTime n df t = carryFrame n t := if_neg hc
    rw [hnext, prevTime_of_not_skipped]
    · exact borrowFrame_carryFrame hn hl
    · rintro ⟨hdf, hss, hff, hmm⟩
      have hne := carryFrame_ff_ne_two hss hmm fun h => hd ⟨hdf, h⟩
      exact hc ⟨hdf, hss, by omega, hmm⟩

/-- One frame back, then forward, from a legal, undropped time. -/
theorem nextTime_prevTime {n : Nat} {df : Bool} {t : Time} (hn : 24 ≤ n) (hl : t.Legal n) (hd : ¬(df = true ∧ t.Dropped)) :
    nextTime n df (prevTime n df t) = t := by
  by_cases hk : df = true ∧ t.ss = 0 ∧ t.ff ≤ 2 ∧ t.mm % 10 ≠ 0
  · obtain ⟨hh, hm, hs, -⟩ := hl
    have hl0 : Time.Legal n { t with ff := 0 } := ⟨hh, hm, hs, by simp only; omega⟩
    rw [prevTime_of_skipped hk, nextTime, carryFrame_borrowFrame hn hl0]
    obtain ⟨hdf, hss, hle, hmm⟩ := hk
    have hff : t.ff = 2 := by
      have hge : ¬t.ff < 2 := fun hlt => hd ⟨hdf, hss, hlt, hmm⟩
      omega
    refine (if_pos ⟨hdf, hss, Nat.zero_lt_two, hmm⟩).trans ?_
    rw [← hff]
  · rw [prevTime_of_not_skipped hk, nextTime, carryFrame_borrowFrame hn hl, skipDropped_of_loadable hd]

theorem Timecode.prev_next {T : Timecode} (h : T.Loadable T.time) : T.next.prev = T := by
  have hn := (framesPerSecond_bounds T.fps).1
  show T.setTime (prevTime (framesPerSecond T.fps) T.df T.next.time) = T
  rw [T.next_time, prevTime_nextTime hn h.1 h.2, T.setTime_time]

theorem Timecode.next_prev {T : Timecode} (h : T.Loadable T.time) : T.prev.next = T := by
  have hn := (framesPerSecond_bounds T.fps).1
  show T.setTime (nextTime (framesPerSecond T.fps) T.df T.prev.time) = T
  rw [T.prev_time, nextTime_prevTime hn h.1 h.2, T.setTime_time]

/-! ### Counted steps (30_encoding.md R114) -/

theorem underOneHold_of_ne_zero {i : Instr} {t : File} {n : Nat} {v : Timecode} {s : State} (hn : n ≠ 0) :
    underOneHold i t n v s = issue i (s.canLock (fileLock t)) (fun s => s.setTc t v) s := if_neg hn

/-- Under a lock that can be taken, a counted step of one more stores what it stores when one step has been taken before it. -/
theorem underOneHold_succ {s : State} {i : Instr} {t : File} {n : Nat} {v w : Timecode} (hp : permits i s = true)
    (hl : s.canLock (fileLock t) = true) (hv : n = 0 → v = w) :
    underOneHold i t (n + 1) w s = underOneHold i t n w (s.opened.setTc t v) := by
  have hp' : permits i (s.opened.setTc t v) = true := by cases t <;> exact hp
  have hl' : (s.opened.setTc t v).canLock (fileLock t) = true := by cases t <;> exact hl
  have hleft : underOneHold i t (n + 1) w s = .next (s.opened.setTc t w) :=
    (underOneHold_of_ne_zero (Nat.succ_ne_zero n)).trans (issue_ready hp hl)
  rw [hleft]
  obtain rfl | hn := eq_or_ne n 0
  · rw [hv rfl]
    cases t <;> rfl
  · rw [underOneHold_of_ne_zero hn, issue_ready hp' hl']
    cases t <;> rfl

/-- The counted form `many` of a frame step `one`: what NEXT_FRAME with STEP, and PREV_FRAME with its count, have in common. -/
theorem countedStep_repeats {t : File} {one : Instr} {many : Nat → Act} {f : Timecode → Timecode}
    {iter : Nat → Timecode → Timecode} (h0 : ∀ T, iter 0 T = T) (hsucc : ∀ n T, iter (n + 1) T = iter n (f T))
    (hone : ∀ s, exec one s = issue one (s.canLock (fileLock t)) (fun s => s.setTc t (f (s.tc t))) s)
    (hmany : ∀ n s, perform (many n) s = underOneHold one t n (iter n (s.tc t)) s) (s : State) (n : Nat) :
    perform (many 0) s = .next s.opened ∧
    (permits one s = true → s.canLock (fileLock t) = true →
      ∃ s1, exec one s = .next s1 ∧ perform (many (n + 1)) s = perform (many n) s1) ∧
    (permits one s = true → s.canLock (fileLock t) = false → perform (many (n + 1)) s = .next s.heldUp) ∧
    (permits one s = false → perform (many (n + 1)) s = .refused (.notPermitted s.agent)) := by
  refine ⟨hmany 0 s, fun hp hl => ⟨_, (hone s).trans (issue_ready hp hl), ?_⟩, fun hp hl => ?_, fun hp => ?_⟩
  · rw [hmany, hmany, hsucc, State.setTc_tc, State.opened_tc]
    exact underOneHold_succ hp hl fun hn => by rw [hn, h0]
  · rw [hmany, underOneHold_of_ne_zero (Nat.succ_ne_zero n)]
    exact issue_held hp hl
  · rw [hmany, underOneHold_of_ne_zero (Nat.succ_ne_zero n)]
    exact issue_refused hp

/-- Settles O21: the inverse law on the file's time, and the counted forms by what they have in common. -/
theorem frameStepsInvertAndRepeat : Obligations.FrameStepsInvertAndRepeat := by
  unfold Obligations.FrameStepsInvertAndRepeat
  refine ⟨fun T h => ⟨Timecode.prev_next h, Timecode.next_prev h, Timecode.next_loadable h, Timecode.prev_loadable h⟩, ?_⟩
  rintro s t n one many (⟨rfl, rfl⟩ | ⟨rfl, rfl⟩)
  · exact countedStep_repeats (iter := Timecode.stepN) (fun _ => rfl) (fun _ _ => rfl) (exec_nextFrame · t)
      (fun _ _ => rfl) s n
  · exact countedStep_repeats (iter := Timecode.prevN) (fun _ => rfl) (fun _ _ => rfl) (exec_prevFrame · t)
      (fun _ _ => rfl) s n

/-! ### The day (R136) -/

/-- The minute of the day. -/
def Time.minute (t : Time) : Nat := t.hh * 60 + t.mm

theorem Time.minute_mod (t : Time) : t.minute % 10 = t.mm % 10 := by
  unfold Time.minute
  omega

/-- The frame number that a minute of the day begins with. -/
def firstFrame (df : Bool) (m : Nat) : Nat := if df = true ∧ m % 10 ≠ 0 then 2 else 0

/-- How many frame numbers are skipped from midnight up to the beginning of a minute of the day. -/
def skippedFrames (df : Bool) (m : Nat) : Nat := if df = true then 2 * (m - m / 10) else 0

theorem skippedFrames_succ (df : Bool) (m : Nat) : skippedFrames df (m + 1) = skippedFrames df m + firstFrame df (m + 1) := by
  unfold skippedFrames firstFrame
  cases df
  · simp
  · simp only [if_true, true_and]
    split <;> omega

theorem skippedFrames_le (df : Bool) (m : Nat) : skippedFrames df m ≤ 2 * m := by
  unfold skippedFrames
  split <;> omega

/-- The frames of a day at `n` a second: the frame numbers of its 1440 minutes but those that are skipped up to the last. -/
def dayLength (n : Nat) (df : Bool) : Nat := 1440 * 60 * n - skippedFrames df 1439

/-- How many frames of the day come before a time: the frame numbers before it, but those that are skipped up to its minute. -/
def frameIndex (n : Nat) (df : Bool) (t : Time) : Nat := (t.minute * 60 + t.ss) * n + t.ff - skippedFrames df t.minute

/-- The carry chain by minutes of the day: it stays within one, or goes on to the first frame number of the next, midnight's after
the last. -/
theorem carryFrame_minute {n : Nat} {t : Time} (hl : t.Legal n) :
    ((carryFrame n t).minute = t.minute ∧
      ((carryFrame n t).ss = t.ss ∧ (carryFrame n t).ff = t.ff + 1 ∨
        (carryFrame n t).ss = t.ss + 1 ∧ (carryFrame n t).ff = 0 ∧ t.ff + 1 = n)) ∨
    (t.ss = 59 ∧ t.ff + 1 = n ∧ (carryFrame n t).ss = 0 ∧ (carryFrame n t).ff = 0 ∧
      ((carryFrame n t).minute = t.minute + 1 ∨ t.minute = 1439 ∧ (carryFrame n t).minute = 0)) := by
  obtain ⟨l1, l2, l3, l4⟩ := hl
  rcases carryFrame_cases n t with ⟨c1, c⟩ | ⟨c1, c2, c⟩ | ⟨c1, c2, c3, c⟩ | ⟨c1, c2, c3, c4, c⟩ | ⟨c1, c2, c3, c4, c⟩ <;>
    rw [c] <;> simp [Time.minute] <;> omega

/-- NEXT_FRAME by minutes of the day: it stays within one, or goes on to the first frame of the next. -/
theorem nextTime_minute {n : Nat} {df : Bool} {t : Time} (hl : t.Legal n) (hd : ¬(df = true ∧ t.Dropped)) :
    ((nextTime n df t).minute = t.minute ∧
      ((nextTime n df t).ss = t.ss ∧ (nextTime n df t).ff = t.ff + 1 ∨
        (nextTime n df t).ss = t.ss + 1 ∧ (nextTime n df t).ff = 0 ∧ t.ff + 1 = n)) ∨
    (t.ss = 59 ∧ t.ff + 1 = n ∧ (nextTime n df t).ss = 0 ∧ (nextTime n df t).ff = firstFrame df (nextTime n df t).minute ∧
      ((nextTime n df t).minute = t.minute + 1 ∨ t.minute = 1439 ∧ (nextTime n df t).minute = 0)) := by
  have hcarry := carryFrame_minute hl
  have hmod := t.minute_mod
  have hmod' := (carryFrame n t).minute_mod
  unfold nextTime firstFrame
  generalize carryFrame n t = c at *
  by_cases hc : df = true ∧ c.Dropped
  · rw [show skipDropped df c = { c with ff := 2 } from if_pos hc]
    obtain ⟨hdf, hss, hff, hmm⟩ := hc
    have hd' : ¬t.Dropped := fun h => hd ⟨hdf, h⟩
    have hnew : t.ss = 59 := by simp only [Time.Dropped] at hd'; omega
    refine .inr ⟨hnew, by omega, hss, ?_, ?_⟩
    · exact (if_pos ⟨hdf, by change c.minute % 10 ≠ 0; omega⟩).symm
    · change c.minute = _ ∨ _ ∧ c.minute = 0
      omega
  · rw [skipDropped_of_loadable hc]
    refine hcarry.imp_right ?_
    rintro ⟨h1, h2, h3, h4, h5⟩
    refine ⟨h1, h2, h3, ?_, h5⟩
    rw [if_neg, h4]
    rintro ⟨hdf, hm⟩
    exact hc ⟨hdf, h3, by omega, by omega⟩

/-- NEXT_FRAME counts one frame of the day, and the last is followed by the first. -/
theorem frameIndex_nextTime {n : Nat} {df : Bool} {t : Time} (hn : n = 24 ∨ n = 25 ∨ n = 30) (hl : t.Legal n)
    (hd : ¬(df = true ∧ t.Dropped)) :
    frameIndex n df (nextTime n df t) = frameIndex n df t + 1 ∨
    frameIndex n df t + 1 = dayLength n df ∧ frameIndex n df (nextTime n df t) = 0 := by
  have hle := skippedFrames_le df t.minute
  have hzero : skippedFrames df 0 = 0 := by cases df <;> rfl
  have hfirst : firstFrame df 0 = 0 := by cases df <;> rfl
  unfold frameIndex dayLength
  obtain ⟨hm, h⟩ | ⟨hss, hff, hss', hff', hm | ⟨hm, hm'⟩⟩ := nextTime_minute hl hd
  · rw [hm]
    obtain rfl | rfl | rfl := hn <;> omega
  · rw [hff', hss', hm, skippedFrames_succ]
    obtain rfl | rfl | rfl := hn <;> omega
  · rw [hff', hss', hm, hm', hzero, hfirst]
    rw [hm] at hle
    obtain rfl | rfl | rfl := hn <;> omega

/-- The first frame of the day is midnight. -/
theorem eq_midnight_of_frameIndex {n : Nat} {df : Bool} {t : Time} (hn : n = 24 ∨ n = 25 ∨ n = 30)
    (h : frameIndex n df t = 0) : t = ⟨0, 0, 0, 0⟩ := by
  have hle := skippedFrames_le df t.minute
  obtain ⟨hmin, hss, hff⟩ : t.minute = 0 ∧ t.ss = 0 ∧ t.ff = 0 := by
    unfold frameIndex at h
    obtain rfl | rfl | rfl := hn <;> omega
  unfold Time.minute at hmin
  cases t
  simp only [Time.mk.injEq] at *
  omega

/-- Every frame of the day but the first is counted one after the frame before it. -/
theorem frameIndex_prevTime {n : Nat} {df : Bool} {t : Time} {k : Nat} (hn : n = 24 ∨ n = 25 ∨ n = 30) (hl : t.Legal n)
    (hd : ¬(df = true ∧ t.Dropped)) (h : frameIndex n df t = k + 1) : frameIndex n df (prevTime n df t) = k := by
  have hn' : 24 ≤ n := by omega
  obtain ⟨hl', hd'⟩ := prevTime_loadable hn' ⟨hl, hd⟩
  have hnext := frameIndex_nextTime hn hl' hd'
  rw [nextTime_prevTime hn' hl hd, h] at hnext
  omega

/-- A time of the day is known by how many frames come before it. -/
theorem eq_of_frameIndex {n : Nat} {df : Bool} (hn : n = 24 ∨ n = 25 ∨ n = 30) : ∀ {k : Nat} {t u : Time},
    t.Legal n → ¬(df = true ∧ t.Dropped) → u.Legal n → ¬(df = true ∧ u.Dropped) →
    frameIndex n df t = k → frameIndex n df u = k → t = u
  | 0, t, u, _, _, _, _, h, h' => (eq_midnight_of_frameIndex hn h).trans (eq_midnight_of_frameIndex hn h').symm
  | k + 1, t, u, hl, hd, hl', hd', h, h' => by
    have hn' : 24 ≤ n := by omega
    obtain ⟨pl, pd⟩ := prevTime_loadable hn' ⟨hl, hd⟩
    obtain ⟨pl', pd'⟩ := prevTime_loadable hn' ⟨hl', hd'⟩
    have hprev : prevTime n df t = prevTime n df u :=
      eq_of_frameIndex hn pl pd pl' pd' (frameIndex_prevTime hn hl hd h) (frameIndex_prevTime hn hl' hd' h')
    rw [← nextTime_prevTime hn' hl hd, hprev, nextTime_prevTime hn' hl' hd']

theorem frameIndex_lt {n : Nat} {df : Bool} {t : Time} (hn : n = 24 ∨ n = 25 ∨ n = 30) (hl : t.Legal n) :
    frameIndex n df t < dayLength n df := by
  obtain ⟨hh, hm, hs, hf⟩ := hl
  have hmin : t.minute ≤ 1439 := by unfold Time.minute; omega
  unfold frameIndex dayLength skippedFrames
  cases df <;> simp only [if_true, if_false, Bool.false_eq_true] <;> obtain rfl | rfl | rfl := hn <;> omega

theorem dayLength_eq (n : Nat) (df : Bool) :
    dayLength n df = 24 * 60 * 60 * n - (if df = true then 2 * (60 - 6) * 24 else 0) := by
  cases df <;> rfl

/-- The place of a register file's time in its day. -/
def Timecode.index (T : Timecode) : Nat := frameIndex (framesPerSecond T.fps) T.df T.time

theorem Timecode.index_next {T : Timecode} (h : T.Loadable T.time) : T.next.index = T.index + 1 ∨
    T.index + 1 = dayLength (framesPerSecond T.fps) T.df ∧ T.next.index = 0 := by
  unfold Timecode.index
  rw [T.next_time]
  exact frameIndex_nextTime (framesPerSecond_cases T.fps) h.1 h.2

/-- `k` frames forward is `k` places on, round the day. -/
theorem Timecode.index_stepN : ∀ (k : Nat) {T : Timecode}, T.Loadable T.time →
    (Timecode.stepN k T).index = (T.index + k) % dayLength (framesPerSecond T.fps) T.df
  | 0, T, h => (Nat.mod_eq_of_lt (frameIndex_lt (framesPerSecond_cases T.fps) h.1)).symm
  | k + 1, T, h => by
    refine (Timecode.index_stepN k (Timecode.next_loadable h)).trans ?_
    rw [T.next_fps, T.next_df]
    obtain e | ⟨hday, e⟩ := Timecode.index_next h
    · rw [e, Nat.add_assoc, Nat.add_comm 1 k]
    · rw [e, Nat.add_comm k 1, ← Nat.add_assoc, hday, Nat.zero_add, Nat.add_mod_left]

/-- Frame steps that come back to the place come back to the file: they write its time alone. -/
theorem Timecode.stepN_eq_self {T : Timecode} {k : Nat} (h : T.Loadable T.time) (hk : (Timecode.stepN k T).index = T.index) :
    Timecode.stepN k T = T := by
  obtain ⟨hload, hfps, hdf⟩ := Timecode.stepN_keeps k T h
  have htime : (Timecode.stepN k T).time = T.time := by
    unfold Timecode.index at hk
    rw [Timecode.Loadable, hfps, hdf] at hload
    rw [hfps, hdf] at hk
    exact eq_of_frameIndex (framesPerSecond_cases T.fps) hload.1 hload.2 h.1 h.2 hk rfl
  obtain ⟨v, e⟩ := Timecode.stepN_eq_setTime k T
  calc Timecode.stepN k T = (Timecode.stepN k T).setTime (Timecode.stepN k T).time := (Timecode.setTime_time _).symm
    _ = (T.setTime v).setTime T.time := by rw [htime, e]
    _ = T := by rw [Timecode.setTime_setTime, Timecode.setTime_time]

/-- Settles O22: each step is one place on, round the day, and a legal value is known by its place. -/
theorem dayIsOneCycle : Obligations.DayIsOneCycle := by
  unfold Obligations.DayIsOneCycle
  intro T h
  dsimp only
  rw [← dayLength_eq]
  have hlt := frameIndex_lt (df := T.df) (framesPerSecond_cases T.fps) h.1
  change T.index < _ at hlt
  refine ⟨Timecode.stepN_eq_self h ?_, fun k hpos hk e => ?_⟩
  · rw [Timecode.index_stepN _ h, Nat.add_mod_right, Nat.mod_eq_of_lt hlt]
  · have hi := Timecode.index_stepN k h
    rw [e] at hi
    by_cases hwrap : T.index + k < dayLength (framesPerSecond T.fps) T.df
    · rw [Nat.mod_eq_of_lt hwrap] at hi
      omega
    · rw [Nat.mod_eq_sub_mod (by omega), Nat.mod_eq_of_lt (by omega)] at hi
      omega

/-! ### TO_RAW and TO_ASCII (R137, R138) -/

theorem fieldAt_toNat {n k : Nat} (v : BitVec n) (h : n + k ≤ 32) : (fieldAt v k).toNat = v.toNat * 2 ^ k := by
  have hv : v.toNat * 2 ^ k < 2 ^ 32 :=
    calc v.toNat * 2 ^ k < 2 ^ n * 2 ^ k := Nat.mul_lt_mul_of_pos_right v.isLt (Nat.two_pow_pos k)
      _ = 2 ^ (n + k) := (Nat.pow_add 2 n k).symm
      _ ≤ 2 ^ 32 := Nat.pow_le_pow_right (by decide) h
  rw [fieldAt, BitVec.toNat_shiftLeft, BitVec.toNat_setWidth_of_le (by omega), Nat.shiftLeft_eq, Nat.mod_eq_of_lt hv]

/-- A field above what is below it: the join is the sum. -/
theorem fieldAt_or_toNat {n k b : Nat} (v : BitVec n) {w : Word} (h : n + k ≤ 32) (hw : w.toNat = b) (hb : b < 2 ^ k) :
    (fieldAt v k ||| w).toNat = v.toNat * 2 ^ k + b := by
  subst hw
  rw [BitVec.toNat_or, fieldAt_toNat v h, ← Nat.shiftLeft_eq, Nat.shiftLeft_add_eq_or_of_lt hb]

/-- The raw word is the sum of its fields at their places (30_encoding.md R105). -/
theorem raw32_word_toNat (f : Raw32) : f.word.toNat =
    f.df.toNat * 2 ^ 31 + (f.hh.toNat * 2 ^ 24 + (f.mm.toNat * 2 ^ 16 + (f.ss.toNat * 2 ^ 8 + f.ff.toNat * 2 ^ 0))) := by
  have hhh := f.hh.isLt
  have hmm := f.mm.isLt
  have hss := f.ss.isLt
  have hff := f.ff.isLt
  have ff := fieldAt_toNat f.ff (k := 0) (by decide)
  have ss := fieldAt_or_toNat f.ss (k := 8) (by decide) ff (by omega)
  have mm := fieldAt_or_toNat f.mm (k := 16) (by decide) ss (by omega)
  have hh := fieldAt_or_toNat f.hh (k := 24) (by decide) mm (by omega)
  have df := fieldAt_or_toNat (BitVec.ofBool f.df) (k := 31) (by decide) hh (by omega)
  rw [BitVec.toNat_ofBool] at df
  rw [← df, Raw32.word, bitAt, BitVec.or_assoc, BitVec.or_assoc, BitVec.or_assoc]

/-- `RAW32(T)` as a number. -/
theorem Timecode.raw_toNat (T : Timecode) : T.raw.toNat =
    T.df.toNat * 2 ^ 31 + T.hh.toNat * 2 ^ 24 + T.mm.toNat * 2 ^ 16 + T.ss.toNat * 2 ^ 8 + T.ff.toNat := by
  refine (raw32_word_toNat _).trans ?_
  simp only [Timecode.rawFields]
  rw [BitVec.toNat_setWidth_of_le (by decide), BitVec.toNat_setWidth_of_le (by decide),
    BitVec.toNat_setWidth_of_le (by decide), BitVec.toNat_setWidth_of_le (by decide)]
  omega

/-- Settles O23: the raw word as the sum of its fields at their places; the characters as the model spells them. -/
theorem serialisedForms : Obligations.SerialisedForms := by
  unfold Obligations.SerialisedForms
  intro s t
  refine ⟨fun hp hl => ⟨_, (exec_toRaw s t).trans (issue_ready hp hl), ?_⟩, fun hp hl => ?_⟩
  · rw [State.opened_tc]
    exact Timecode.raw_toNat _
  · refine (exec_toAscii s t).trans ((issue_ready hp hl).trans ?_)
    rw [State.opened_tc]
    rfl

/-! ### User bits and flags (R140, R141) -/

/-- Settles O25: each is one write of its file. -/
theorem userBitsAndFlagsAreStored : Obligations.UserBitsAndFlagsAreStored := by
  unfold Obligations.UserBitsAndFlagsAreStored
  refine ⟨fun s t n1 n2 n3 n4 n5 n6 n7 n8 hp hl => ?_, fun s t cf clk bgf0 bgf2 hp hl => ?_⟩
  · refine (exec_setUb s t n1 n2 n3 n4 n5 n6 n7 n8).trans ((issue_ready hp hl).trans ?_)
    rw [State.opened_tc]
    rfl
  · refine (exec_setFlags s t cf clk bgf0 bgf2).trans ((issue_ready hp hl).trans ?_)
    rw [State.opened_tc]
    rfl

/-! ### READ_RAW_STABLE (R142) -/

/-- The double read delivers the word of the first pair that agrees, else that of the present value. -/
theorem stableRead_cases (old new : RawFields) : ∀ tears : List (Tear × Tear),
    (∃ pairs later m m', tears = pairs ++ (m, m') :: later ∧
      (∀ p ∈ pairs, (tornFields old new p.1).word ≠ (tornFields old new p.2).word) ∧
      (tornFields old new m).word = (tornFields old new m').word ∧ stableRead old new tears = (tornFields old new m).word) ∨
    ((∀ p ∈ tears, (tornFields old new p.1).word ≠ (tornFields old new p.2).word) ∧ stableRead old new tears = old.word)
  | [] => .inr ⟨nofun, rfl⟩
  | (a, b) :: rest => by
    by_cases hab : (tornFields old new a).word = (tornFields old new b).word
    · exact .inl ⟨[], rest, a, b, rfl, nofun, hab, if_pos hab⟩
    · have hrest : stableRead old new ((a, b) :: rest) = stableRead old new rest := if_neg hab
      rw [hrest]
      obtain ⟨pairs, later, m, m', rfl, hdiff, hagree, hw⟩ | ⟨hdiff, hw⟩ := stableRead_cases old new rest
      · exact .inl ⟨(a, b) :: pairs, later, m, m', rfl, List.forall_mem_cons.mpr ⟨hab, hdiff⟩, hagree, hw⟩
      · exact .inr ⟨List.forall_mem_cons.mpr ⟨hab, hdiff⟩, hw⟩

theorem tornFields_self (r : RawFields) (m : Tear) : tornFields r r m = r := by
  simp [tornFields]

/-- With no field in change every read finds the present value. -/
theorem stableRead_self (r : RawFields) : ∀ tears : List (Tear × Tear), stableRead r r tears = r.word
  | [] => rfl
  | (a, b) :: _ => by simp [stableRead, tornFields_self]

/-- Settles O26: READ_RAW_STABLE waits for nothing, and its double read ends at the first pair that agrees. -/
theorem stableReadDeliversAgreement : Obligations.StableReadDeliversAgreement := by
  unfold Obligations.StableReadDeliversAgreement
  intro s t hp
  refine ⟨stableRead (s.tc t).rawFields (s.newRaw t) s.tears, ?_, stableRead_cases _ _ _, fun hnone => ?_, fun hsame => ?_⟩
  · refine (exec_readRawStable s t).trans ((issue_ready hp rfl).trans ?_)
    cases t <;> rfl
  · rw [hnone]
    rfl
  · rw [hsame]
    exact stableRead_self _ _

end Sys2Proof.Machine
end

section
/-! PROOF. The invariant of the block (10_state.md R22, R33, R39, R41; 20_memory.md R63; 43_clock_adjust.md R212): every
operation, every act at the ports and every turn keeps it. -/

namespace Sys2Proof.Machine

/-! ### Steps that keep what is claimed -/

/-- From one state to the next the invariant is kept, the parameters stay, and FINE goes on following the phase. -/
structure Keeps (s s' : State) : Prop where
  inv : Inv s → Inv s'
  par : s'.par = s.par
  fine : FineFollowsPhase s → FineFollowsPhase s'

theorem Keeps.refl (s : State) : Keeps s s := ⟨id, rfl, id⟩

theorem Keeps.trans {a b c : State} (h : Keeps a b) (k : Keeps b c) : Keeps a c :=
  ⟨k.inv ∘ h.inv, k.par.trans h.par, k.fine ∘ h.fine⟩

/-- What leaves the divider alone and starts no engine keeps FINE with the phase (10_state.md R39). -/
theorem FineFollowsPhase.of_dv_kept {s s' : State} (hd : s'.dv = s.dv) (hr : running s'.mode = true → running s.mode = true)
    (h : FineFollowsPhase s) : FineFollowsPhase s' := fun hrun => by
  rw [hd]
  exact h (hr hrun)

variable {s : State}

theorem Keeps.opened : Keeps s s.opened := ⟨Inv.opened, rfl, id⟩

theorem Keeps.heldUp : Keeps s s.heldUp := ⟨Inv.heldUp, rfl, id⟩

theorem Keeps.answer {s' : State} (h : Keeps s s') (r : Result) : Keeps s (s'.answer r) :=
  h.trans ⟨fun hi => hi.answer r, rfl, id⟩

theorem Keeps.raise {s' : State} (h : Keeps s s') (e : Event) : Keeps s (s'.raise e) :=
  h.trans ⟨fun hi => hi.raise e, rfl, id⟩

theorem Keeps.setSt {s' : State} (h : Keeps s s') {v : Status} (hv : v.underflow = s'.st.underflow) : Keeps s (s'.setSt v) :=
  h.trans ⟨fun hi => hi.setSt hv, rfl, id⟩

theorem setTc_keeps (t : File) {v : Timecode} (htx : t = .tx → s.tx.LegalFile → v.LegalFile)
    (hrx : t = .rx → s.rx.FrameLegal → v.FrameLegal) : Keeps s (s.setTc t v) :=
  ⟨fun h => h.setTc t (fun ht => htx ht h.tx) (fun ht => hrx ht h.rx), by simp,
    FineFollowsPhase.of_dv_kept (by simp) (by simp)⟩

/-- LINE steps keep what is claimed: the divider is not theirs, and they start no engine. -/
theorem LineFrame.keeps {s' : State} (f : LineFrame s s') : Keeps s s' :=
  ⟨fun h => h.lineFrame f, f.par, FineFollowsPhase.of_dv_kept f.dv fun hr => by
    obtain ⟨m, -⟩ | ⟨run, -⟩ := f.engine
    · rwa [← m]
    · exact run⟩

/-! ### Timecode value operations (40_timecode_ops.md R145) -/

theorem setFpsDf_keeps (t : File) (code : BitVec 3) (df : Bool) : Keeps s (s.setFpsDf t code df) := by
  unfold State.setFpsDf
  split
  · next fps ha =>
    obtain ⟨-, hdf⟩ := acceptRate_some ha
    have k : Keeps s (s.setTc t (revalidate s.draws { s.tc t with fps := fps, df := df })) := by
      refine setTc_keeps t ?_ fun _ _ => revalidate_ff_lt _ _
      rintro rfl ⟨⟨⟨hh, hm, hs, -⟩, -⟩, -⟩
      exact revalidate_legalFile _ hh hm hs hdf
    exact k.trans ⟨fun h => { h with }, rfl, id⟩
  · exact ((Keeps.refl s).raise _).answer _

theorem loadTime_keeps (t : File) (v : Time) : Keeps s (s.loadTime t v) := by
  unfold State.loadTime
  split
  · next hl =>
    refine Keeps.answer (setTc_keeps t ?_ ?_) _
    · rintro rfl ⟨-, hdf⟩
      exact hl.legalFile hdf
    · rintro rfl -
      rw [Timecode.FrameLegal, hl.setTime_time]
      exact hl.1.2.2.2
  · exact ((Keeps.refl s).raise _).answer _

theorem fromAscii_keeps (t : File) (str : List Byte) : Keeps s (s.fromAscii t str) := by
  unfold State.fromAscii
  split
  · exact loadTime_keeps t _
  · exact ((Keeps.refl s).raise _).answer _

theorem setTc_stepN_keeps (t : File) (n : Nat) : Keeps s (s.setTc t (Timecode.stepN n (s.tc t))) :=
  setTc_keeps t (by rintro rfl h; exact Timecode.stepN_legalFile n h) (by rintro rfl h; exact Timecode.stepN_frameLegal n h)

theorem setTc_prevN_keeps (t : File) (n : Nat) : Keeps s (s.setTc t (Timecode.prevN n (s.tc t))) :=
  setTc_keeps t (by rintro rfl h; exact Timecode.prevN_legalFile n h) (by rintro rfl h; exact Timecode.prevN_frameLegal n h)

theorem jamLoad_keeps (k : Nat) : Keeps s (s.jamLoad k) := by
  unfold State.jamLoad
  split
  · next hj =>
    exact Keeps.answer (setTc_keeps .tx (fun _ _ => Timecode.stepN_legalFile k (jamCopy_legalFile hj)) nofun) _
  · exact ((Keeps.refl s).raise _).answer _

/-! ### The decoder (42_ltc_decoder.md R200) -/

theorem decPacket_keeps (w0 w1 : Word) : Keeps s (s.decPacket w0 w1) := by
  have hp : Keeps s (s.reportParity (parityOk w0 w1)) := by
    unfold State.reportParity
    split
    · exact .refl s
    · exact (Keeps.refl s).raise _
  have hst : (s.reportParity (parityOk w0 w1)).st = s.st := by unfold State.reportParity; split <;> rfl
  unfold State.decPacket
  dsimp only
  split
  · next hf =>
    refine Keeps.answer (Keeps.setSt (hp.trans (setTc_keeps .rx nofun fun _ _ => decCommit_frameLegal s.par hf)) ?_) _
    simp [Status.decoded, hst]
  · exact ((hp.setSt (by simp [Status.decoded, hst])).raise _).answer _

theorem syncReject_keeps : Keeps s s.syncReject :=
  (((Keeps.refl s).setSt (v := s.st.syncChecked false) rfl).raise _).answer _

theorem syncChecked_decPacket_keeps (w0 w1 : Word) : Keeps s ((s.setSt (s.st.syncChecked true)).decPacket w0 w1) :=
  ((Keeps.refl s).setSt (v := s.st.syncChecked true) rfl).trans (decPacket_keeps w0 w1)

theorem decPacket3_keeps (x0 x1 x2 : Word) : Keeps s (s.decPacket3 x0 x1 x2) := by
  unfold State.decPacket3
  split
  · exact syncChecked_decPacket_keeps _ _
  · exact syncReject_keeps

theorem decFrame80_keeps (w0 w1 : Word) (s16 : Half) : Keeps s (s.decFrame80 w0 w1 s16) := by
  unfold State.decFrame80
  split
  · exact syncChecked_decPacket_keeps _ _
  · exact syncReject_keeps

/-- A queue that does not outgrow its depth keeps what is claimed. -/
theorem rxq_keeps {q : List Word} (h : s.rxq.length ≤ s.par.rxqDepth → q.length ≤ s.par.rxqDepth)
    (held : Option (Word × Word)) : Keeps s { s with rxq := q, rxHeld := held } :=
  ⟨fun hi => { hi with queues := ⟨hi.queues.1, h hi.queues.2.1, hi.queues.2.2⟩ }, rfl, id⟩

theorem rxPoll_keeps : Keeps s s.rxPoll := by
  obtain ⟨w0, w1, -, e⟩ | ⟨-, -, e⟩ | ⟨-, w0, w1, q, s1, pushed, hq, f, -, -, -, -, -, -, -, ht, c⟩ := rxPoll_cases s
  · rw [e]
    exact ((rxq_keeps id none).trans (decPacket_keeps w0 w1)).answer _
  · rw [e]
    exact .refl s
  · have hpop : Keeps s { s with rxq := w1 :: q } := rxq_keeps (by rw [hq]; simp; omega) s.rxHeld
    have hlen : s1.rxq.length ≤ s1.par.rxqDepth → (q ++ pushed).length ≤ s1.par.rxqDepth := fun h => by
      rw [← ht, List.length_tail]
      omega
    have h1 := hpop.trans f.keeps
    obtain ⟨-, e⟩ | ⟨-, e⟩ := c <;> rw [e]
    · exact ((h1.trans (rxq_keeps hlen s1.rxHeld)).trans (decPacket_keeps w0 w1)).answer _
    · exact (h1.trans (rxq_keeps hlen (some (w0, w1)))).answer _

/-! ### The line and the encoder -/

theorem lineTxPop_keeps (hr : running s.mode = true) : Keeps s s.lineTxPop := (lineTxPop_frame hr).keeps

/-- TX_FRAME with room for its packet (41_ltc_encoder.md R176). -/
theorem txFrame_keeps (hroom : s.txq.length + wordsNeeded s.syncph ≤ 8) : Keeps s s.txFrame := by
  have hecho : Keeps s (s.pushEcho s.tx.raw) := ⟨fun h => { h with queues := h.queues.pushEcho _ }, rfl, id⟩
  obtain ⟨n, hn, f, -⟩ := pushPacket_frame (encPacketOf s.par s.tx s.syncph) s.between (s.pushEcho s.tx.raw)
    (by rw [encPacketOf_length]; exact hroom)
  rw [encPacketOf_length] at hn
  have hpush : Keeps (s.pushEcho s.tx.raw) { s.pushEcho s.tx.raw with
      txq := (s.pushEcho s.tx.raw).txq ++ (encPacketOf s.par s.tx s.syncph).take n } := by
    refine ⟨fun h => { h with queues := ⟨?_, h.queues.2⟩ }, rfl, id⟩
    rw [List.length_append, List.length_take, encPacketOf_length]
    show s.txq.length + _ ≤ 8
    omega
  have hstep : ∀ u : State, u.tx = s.tx → Keeps u { u with syncph := !s.syncph, tx := s.tx.next } := fun u hu =>
    ⟨fun h => { h with tx := Timecode.stepN_legalFile 1 (hu ▸ h.tx) }, rfl, id⟩
  exact (((hecho.trans hpush).trans f.keeps).trans (hstep _ f.tx)).answer _

theorem room_of_txFrameReady (h : txFrameReady s = true) : s.txq.length + wordsNeeded s.syncph ≤ 8 := by
  by_contra hn
  rw [wordsNeeded_eq] at hn
  exact absurd (h.symm.trans (txFrameReady_of_no_room (by omega))) nofun

theorem room_of_belowWatermark (h : belowWatermark s = true) : s.txq.length + wordsNeeded s.syncph ≤ 8 := by
  have hlt : s.txq.length + (if s.syncph then 1 else 0) < 7 := of_decide_eq_true h
  rw [wordsNeeded]
  split at hlt
  · next hp => rw [if_pos hp]; omega
  · next hp => rw [if_neg hp]; omega

/-! ### The clock adjuster (43_clock_adjust.md R212) -/

theorem setDv_keeps {d : Divider} (hfit : DividerFit s.par s.dv → DividerFit s.par d)
    (hidle : Inv s → running s.mode = false → s.st.underflow = false → d.dstate = .idle)
    (hfine : running s.mode = true → FineIffOn s.dv → FineIffOn d) : Keeps s (s.setDv d) :=
  ⟨fun h => h.setDv (hfit h.dividerFit) (hidle h), rfl, fun h hr => hfine hr (h hr)⟩

/-- CANCEL_DITHER of a stopped engine. -/
theorem setDv_cancelDivider_keeps (hs : running s.mode = false) : Keeps s (s.setDv (cancelDivider s.dv)) :=
  setDv_keeps cancelDivider_fit (fun _ _ _ => rfl) (by simp [hs])

theorem microAdjust_keeps (c : CalArg) (P : Int) : Keeps s (s.microAdjust c P) := by
  obtain ⟨-, e⟩ | ⟨x, q, ha, ⟨hr, e⟩ | ⟨hr, e⟩⟩ := microAdjust_cases s c P <;> rw [e]
  · exact (Keeps.refl s).raise _
  · obtain ⟨-, hx, hq, -⟩ := acceptCal_some ha
    exact setDv_keeps (fun h => adjustDivider_fit h hx hq) (by simp [hr]) fun _ h => adjustDivider_fineIffOn h
  · exact setDv_cancelDivider_keeps hr

theorem mainFire_keeps : Keeps s s.mainFire := by
  unfold State.mainFire
  split
  · exact .refl s
  · next d hd =>
    refine setDv_keeps mainFireDivider_fit (fun h hr hu => ?_) fun _ h => mainFireDivider_fineIffOn h
    exact absurd (hd.symm.trans (h.timers.1 (h.stopped hr hu)).1) nofun

/-- The restore of SAFE_FIRE ends the cycle, whatever its phase (43_clock_adjust.md R222). -/
theorem restoreDivider_idle_fit {p : Params} {d : Divider} (h : DividerFit p d) :
    DividerFit p { restoreDivider d with dstate := .idle } := by
  cases h
  constructor <;> simp_all [restoreDivider]

theorem safeFire_keeps : Keeps s s.safeFire := by
  unfold State.safeFire
  split
  · exact .refl s
  · have h1 : Keeps s ((s.setSt s.st.safetyCounted).raise .safetyTimeout) :=
      ((Keeps.refl s).setSt (v := s.st.safetyCounted) rfl).raise _
    have h2 : Keeps _ (((s.setSt s.st.safetyCounted).raise .safetyTimeout).setDv
        { restoreDivider s.dv with dstate := .idle }) :=
      setDv_keeps restoreDivider_idle_fit (fun _ _ _ => rfl) fun _ _ => by simp [FineIffOn, restoreDivider]
    exact (h1.trans h2).trans (microAdjust_keeps _ _)

theorem loadCal_keeps (c : CalArg) (P : Int) : Keeps s (s.loadCal c P) := by
  unfold State.loadCal
  split
  · exact (Keeps.refl s).raise _
  · next x q ha =>
    obtain ⟨-, hx, hq, -⟩ := acceptCal_some ha
    split
    · exact .refl s
    · exact setDv_keeps (fun h => { h with tgt := hx, period := hq }) (fun h hr hu => h.stopped hr hu) fun _ h => h

/-! ### Engine control -/

theorem clearSession_keeps : Keeps s { s.clearSession with between := [] } := by
  refine ⟨fun h => ?_, rfl, fun _ _ => by simp [State.clearSession]⟩
  exact { h with
    queues := h.queues.clearSession
    divider := by simp [DividerConsistent, State.clearSession]
    timers := by simp [TimersPaired, State.clearSession]
    halted := nofun
    stopped := fun _ _ => rfl }

theorem prefill_keeps : ∀ (k : Nat) (s : State), Keeps s (prefill k s)
  | 0, s => .refl s
  | k + 1, s => by
    rw [prefill]
    split
    · next hb => exact (txFrame_keeps (room_of_belowWatermark hb)).trans (prefill_keeps k _)
    · exact .refl s

/-- The engine starts with no sticky flag set, and with the fine offset following the phase. -/
theorem enterMode_keeps {m : Mode} (b : List (List LineStep)) (hm : modeLegal s.par.jamMax m = true)
    (hrun : running m = true) (hu : s.st.underflow = false) (hfine : FineIffOn s.dv) :
    Keeps s { s with mode := m, lineOut := .driven, between := b } := by
  refine ⟨fun h => ?_, rfl, fun _ _ => hfine⟩
  exact { h with
    mode := hm
    halted := fun hu' => absurd (hu.symm.trans hu') nofun
    stopped := fun hs => absurd (hrun.symm.trans hs) nofun
    line := by simp [LineLowIffStopped, hrun] }

theorem startIn_keeps {m : Mode} (hm : modeLegal s.par.jamMax m = true) (hrun : running m = true) : Keeps s (s.startIn m) := by
  have h1 := clearSession_keeps.trans (prefill_keeps Config.txWatermark { s.clearSession with between := [] })
  obtain ⟨v, ph, q, e, r, hp⟩ := prefill_of_no_points Config.txWatermark { s.clearSession with between := [] } rfl
  have h2 : Keeps (prefill Config.txWatermark { s.clearSession with between := [] }) _ :=
    enterMode_keeps s.between (m := m) (by rw [hp]; exact hm) hrun (by rw [hp]; rfl)
      (by rw [hp]; simp [FineIffOn, State.clearSession])
  exact ((h1.trans h2).trans (microAdjust_keeps _ _)).answer _

theorem start_keeps (arg : ModeArg) : Keeps s (s.start arg) := by
  unfold State.start
  split
  · exact (Keeps.refl s).answer _
  · split
    · next m hm => exact startIn_keeps (runningMode_some hm).1 (runningMode_some hm).2
    · exact (Keeps.refl s).answer _

theorem requestStop_keeps : Keeps s s.requestStop :=
  ⟨fun h => { h with halted := fun hu => ⟨(h.halted hu).1, rfl⟩ }, rfl, id⟩

theorem setModeTo_keeps (arg : ModeArg) : Keeps s (s.setModeTo arg) := by
  unfold State.setModeTo
  split
  · next hr =>
    split
    · next m hm =>
      obtain ⟨hlegal, hrun⟩ := runningMode_some hm
      refine ⟨fun h => ?_, rfl, FineFollowsPhase.of_dv_kept rfl fun _ => hr⟩
      exact { h with
        mode := hlegal
        halted := fun hu => absurd (hr.symm.trans (h.halted hu).1) nofun
        stopped := fun hs => absurd (hrun.symm.trans hs) nofun
        line := h.line.trans (by simp [hr, hrun]) }
    · exact (Keeps.refl s).answer _
  · exact (Keeps.refl s).answer _

/-- RT's half of STOP, which STOPREQ asks for (44_engine_control.md R252). -/
theorem finishStop_keeps (hq : s.stopReq = true) : Keeps s s.finishStop := by
  refine ⟨fun h => ?_, rfl, fun _ hr => nomatch hr⟩
  have k := cancelDivider_fit h.dividerFit
  exact { h with
    mode := rfl
    divider := ⟨k.sum, k.fine, k.coarse, k.on, k.off⟩
    timers := ⟨k.idle, k.timers⟩
    halted := fun _ => ⟨rfl, hq⟩
    stopped := fun _ _ => rfl
    cal := ⟨k.tgt, k.act, k.period, k.periodAct⟩
    line := by simp [LineLowIffStopped, State.finishStop, running] }

/-- A lock goes to an agent that may hold it (60_exceptions.md R291). -/
theorem mayHold_of_permits_acquire {l : Lock} (h : permits (.acquire l) s = true) : mayHold l s.agent = true := by
  cases ha : s.agent <;>
    simp [permits, agentMay, ha, opClass, uiMay, lineTxMay, lineRxMay, timerMay, hostMay, mayHold] at h ⊢
  exact h

theorem setHolder_keeps (l : Lock) {h : Option Agent} (hh : h.all (mayHold l) = true) : Keeps s (s.setHolder l h) := by
  refine ⟨fun hi => ?_, by simp, FineFollowsPhase.of_dv_kept (by simp) (by simp)⟩
  obtain ⟨h1, h2, h3⟩ := hi.locks
  cases l
  · exact { hi with locks := ⟨hh, h2, h3⟩ }
  · exact { hi with locks := ⟨h1, hh, h3⟩ }
  · exact { hi with locks := ⟨h1, h2, hh⟩ }

/-! ### Operations -/

theorem issue_keeps {i : Instr} {ready : Bool} {body : State → State} {s' : State} {o : Out} (e : o = issue i ready body s)
    (h : o = .next s') (hb : ready = true → Keeps s.opened (body s.opened)) : Keeps s s' := by
  obtain ⟨-, ⟨hr, rfl⟩ | ⟨-, rfl⟩⟩ := issue_next (e ▸ h)
  · exact Keeps.opened.trans (hb hr)
  · exact .heldUp

/-- Every operation but CANCEL_DITHER keeps all of it (10_state.md R44). -/
theorem exec_keeps {i : Instr} {s' : State} (hi : i ≠ .cancelDither) (h : exec i s = .next s') : Keeps s s' := by
  cases i with
  | cancelDither => exact absurd rfl hi
  | setFpsDf t code df => exact issue_keeps (exec_setFpsDf s t code df) h fun _ => setFpsDf_keeps t code df
  | loadTc t hh mm ss ff => exact issue_keeps (exec_loadTc s t hh mm ss ff) h fun _ => loadTime_keeps t _
  | nextFrame t => exact issue_keeps (exec_nextFrame s t) h fun _ => setTc_stepN_keeps t 1
  | prevFrame t => exact issue_keeps (exec_prevFrame s t) h fun _ => setTc_prevN_keeps t 1
  | toRaw t => exact issue_keeps (exec_toRaw s t) h fun _ => (Keeps.refl _).answer _
  | toAscii t => exact issue_keeps (exec_toAscii s t) h fun _ => (Keeps.refl _).answer _
  | fromAscii t str => exact issue_keeps (exec_fromAscii s t str) h fun _ => fromAscii_keeps t str
  | setUb t n1 n2 n3 n4 n5 n6 n7 n8 =>
    refine issue_keeps (exec_setUb s t n1 n2 n3 n4 n5 n6 n7 n8) h fun _ => setTc_keeps t ?_ ?_ <;> rintro rfl hl <;> exact hl
  | setFlags t cf clk bgf0 bgf2 =>
    refine issue_keeps (exec_setFlags s t cf clk bgf0 bgf2) h fun _ => setTc_keeps t ?_ ?_ <;> rintro rfl hl <;> exact hl
  | readRawStable t => exact issue_keeps (exec_readRawStable s t) h fun _ => (Keeps.refl _).answer _
  | encPacket b => exact issue_keeps (exec_encPacket s b) h fun _ => (Keeps.refl _).answer _
  | txFrame => exact issue_keeps (exec_txFrame s) h fun hr => txFrame_keeps (room_of_txFrameReady hr)
  | decPacket w0 w1 => exact issue_keeps (exec_decPacket s w0 w1) h fun _ => decPacket_keeps w0 w1
  | decPacket3 x0 x1 x2 => exact issue_keeps (exec_decPacket3 s x0 x1 x2) h fun _ => decPacket3_keeps x0 x1 x2
  | decFrame80 w0 w1 s16 => exact issue_keeps (exec_decFrame80 s w0 w1 s16) h fun _ => decFrame80_keeps w0 w1 s16
  | rxPoll => exact issue_keeps (exec_rxPoll s) h fun _ => rxPoll_keeps
  | microAdjust c P => exact issue_keeps (exec_microAdjust s c P) h fun _ => microAdjust_keeps c _
  | mainFire => exact issue_keeps (exec_mainFire s) h fun _ => mainFire_keeps
  | safeFire => exact issue_keeps (exec_safeFire s) h fun _ => safeFire_keeps
  | loadCal c P => exact issue_keeps (exec_loadCal s c P) h fun _ => loadCal_keeps c _
  | start arg => exact issue_keeps (exec_start s arg) h fun _ => start_keeps arg
  | stop => exact issue_keeps (exec_stop s) h fun _ => requestStop_keeps
  | setMode arg => exact issue_keeps (exec_setMode s arg) h fun _ => setModeTo_keeps arg
  | acquire l =>
    obtain ⟨hp, ⟨-, rfl⟩ | ⟨-, rfl⟩⟩ := exec_acquire_next h
    · exact Keeps.opened.trans (setHolder_keeps l (mayHold_of_permits_acquire hp))
    · exact .heldUp
  | release l =>
    obtain ⟨-, -, rfl⟩ := exec_release_next h
    exact Keeps.opened.trans (setHolder_keeps l rfl)
  | jamLoad k => exact issue_keeps (exec_jamLoad s k) h fun _ => jamLoad_keeps k
  | lineTxPop => exact issue_keeps (exec_lineTxPop s) h fun hr => lineTxPop_keeps hr
  | lineRxPush w => exact issue_keeps (exec_lineRxPush s w) h fun _ => (lineRxPush_frame _ w).keeps
  | ltcW0 | ltcW1 | p3X0 | p3X1 | p3X2 | sync16 | raw32 => cases h

/-- Only RT issues a CANCEL_DITHER in a running engine that satisfies the invariant: TIMER's comes after an UNDERFLOW. -/
theorem agent_of_permits_cancelDither (h : Inv s) (hp : permits .cancelDither s = true) (hr : running s.mode = true) :
    s.agent = .rt := by
  have hu : s.st.underflow = false := Bool.eq_false_iff.mpr fun hu => absurd (hr.symm.trans (h.halted hu).1) nofun
  cases ha : s.agent <;> simp [permits, agentMay, ha, opClass, uiMay, lineTxMay, lineRxMay, timerMay, hostMay, hu] at hp ⊢

/-- CANCEL_DITHER keeps the invariant, and FINE with the phase but for one of RT in an on phase, which drops the phase and keeps
FINE (43_clock_adjust.md R223, R227; notes/assumptions/24.md). -/
theorem exec_cancelDither_keeps {s' : State} (hi : Inv s) (h : exec .cancelDither s = .next s') :
    Inv s' ∧ s'.par = s.par ∧ (FineFollowsPhase s → FineFollowsPhase s' ∨
      s.agent = .rt ∧ running s.mode = true ∧ s.dv.dstate = .on ∧ s'.dv = cancelDivider s.dv) := by
  obtain ⟨hp, ⟨-, rfl⟩ | ⟨-, rfl⟩⟩ := issue_next (exec_cancelDither s ▸ h)
  · refine ⟨hi.opened.setDv (cancelDivider_fit hi.dividerFit) fun _ _ => rfl, rfl, fun hf => ?_⟩
    by_cases hon : running s.mode = true ∧ s.dv.dstate = .on
    · exact .inr ⟨agent_of_permits_cancelDither hi hp hon.1, hon.1, hon.2, rfl⟩
    · refine .inl fun hr => ?_
      have hoff : s.dv.dstate ≠ .on := fun ho => hon ⟨hr, ho⟩
      have hfine : s.dv.fine = 0 := not_not.mp fun hne => hoff ((hf hr).mp hne)
      simp [cancelDivider, hfine]
  · exact ⟨hi.heldUp, rfl, .inl⟩

/-! ### Acts at the ports -/

theorem underOneHold_keeps {i : Instr} {t : File} {n : Nat} {stepped : Timecode} {s' : State}
    (hb : Keeps s.opened (s.opened.setTc t stepped)) (h : underOneHold i t n stepped s = .next s') : Keeps s s' := by
  obtain ⟨-, rfl⟩ | ⟨-, -, ⟨-, rfl⟩ | ⟨-, rfl⟩⟩ := underOneHold_next h
  · exact .opened
  · exact Keeps.opened.trans hb
  · exact .heldUp

theorem echoq_tail_keeps {w : Word} {q : List Word} (hq : s.echoq = w :: q) : Keeps s { s with echoq := q } := by
  refine ⟨fun hi => ?_, rfl, id⟩
  obtain ⟨htx, hrx, hecho⟩ := hi.queues
  rw [hq] at hecho
  exact { hi with queues := ⟨htx, hrx, Nat.le_of_succ_le hecho⟩ }

theorem rebuild_keeps {s' : State} (h : rebuild s = .next s') : Keeps s s' := by
  obtain ⟨-, -, rfl⟩ := rebuild_next h
  exact ⟨fun hi => { resetWith_inv hi.params with }, rfl, fun _ hr => nomatch hr⟩

/-- Every act that is no operation keeps all of it. -/
theorem perform_keeps {act : Act} {s' : State} (ha : ∀ form bytes, act ≠ .op form bytes) (h : perform act s = .next s') :
    Keeps s s' := by
  cases act with
  | op form bytes => exact absurd rfl (ha form bytes)
  | echoPop =>
    obtain ⟨-, ⟨w, q, hq, rfl⟩ | ⟨-, rfl⟩⟩ := echoPop_next h
    · exact Keeps.answer (s' := { s.opened with echoq := q }) (Keeps.opened.trans (echoq_tail_keeps hq)) _
    · exact .heldUp
  | poll =>
    obtain ⟨-, h | rfl⟩ := poll_next h
    · exact exec_keeps (i := .rxPoll) nofun h
    · exact .opened
  | refill =>
    obtain ⟨-, h | rfl⟩ := refill_next h
    · exact exec_keeps (i := .txFrame) nofun h
    · exact .opened
  | stopCheck =>
    obtain ⟨-, ⟨hq, ⟨-, rfl⟩ | ⟨-, rfl⟩⟩ | ⟨-, rfl⟩⟩ := stopCheck_next h
    · exact Keeps.opened.trans (finishStop_keeps hq)
    · exact .heldUp
    · exact .opened
  | stepCount t n => exact underOneHold_keeps (setTc_stepN_keeps t n) h
  | prevFrameCount t n => exact underOneHold_keeps (setTc_prevN_keeps t n) h
  | rebuild => exact rebuild_keeps h

/-! ### Turns -/

theorem openTurn_keeps (t : Turn) (turns : List Turn) : Keeps s (s.openTurn t turns) := ⟨fun h => { h with }, rfl, id⟩

theorem closeTurn_keeps (before : State) (rest : List Item) (progress : Option Agent) :
    Keeps s (s.closeTurn before rest progress) := by
  unfold State.closeTurn
  split
  · exact ⟨fun h => { h with }, rfl, id⟩
  · exact ⟨fun h => { h with }, rfl, id⟩

theorem closeTurn_dv (before : State) (rest : List Item) (progress : Option Agent) :
    (s.closeTurn before rest progress).dv = s.dv := by
  unfold State.closeTurn
  split <;> rfl

/-- Every turn keeps all of it, unless its operation is a CANCEL_DITHER. -/
theorem runTurn_keeps {s' : State} {t : Turn} {turns : List Turn} (h : runTurn t turns s = .next s') :
    Keeps s s' ∨ ∃ form bytes left items d, takeFirst t.agent s.port = some (⟨t.agent, .op form bytes⟩, items) ∧
      decode form bytes = some (.cancelDither, left) ∧ exec .cancelDither (s.openTurn t turns) = .next d ∧
      Keeps d s' ∧ s'.dv = d.dv := by
  have hopen := openTurn_keeps (s := s) t turns
  obtain ⟨-, rfl⟩ | ⟨⟨a, act⟩, items, hp, ⟨-, rfl⟩ | ⟨-, d, hd, rfl⟩⟩ := runTurn_next h
  · exact .inl (hopen.trans .opened)
  · exact .inl (hopen.trans .heldUp)
  · have hclose := closeTurn_keeps (s := d) (s.openTurn t turns) items
      (progressAfter (s.openTurn t turns) act (writerOf s t))
    by_cases hop : ∃ form bytes, act = .op form bytes
    · obtain ⟨form, bytes, rfl⟩ := hop
      obtain rfl : a = t.agent := (takeFirst_some hp).1
      simp only [perform] at hd
      split at hd
      · next i left hi =>
        by_cases hc : i = .cancelDither
        · subst hc
          exact .inr ⟨form, bytes, left, items, d, hp, hi, hd, hclose, closeTurn_dv _ _ _⟩
        · exact .inl ((hopen.trans (exec_keeps hc hd)).trans hclose)
      · cases hd
    · exact .inl ((hopen.trans (perform_keeps (fun form bytes e => hop ⟨form, bytes, e⟩) hd)).trans hclose)

/-- Settles O58: a step is no change or a turn; a turn keeps the invariant, the parameters and FINE with the phase operation by
operation, and CANCEL_DITHER is the one that may leave FINE behind. -/
theorem stepKeepsInvariant : Obligations.StepKeepsInvariant := by
  unfold Obligations.StepKeepsInvariant
  intro s s' hi h
  cases hs : s.sched with
  | nil =>
    rw [step_of_sched_nil hs] at h
    cases h
    exact ⟨hi, rfl, .inl⟩
  | cons t turns =>
    rw [step_of_sched_cons hs] at h
    obtain k | ⟨form, bytes, left, items, d, hp, hdec, hd, hclose, hdv⟩ := runTurn_keeps h
    · exact ⟨k.inv hi, k.par, fun hf => .inl (k.fine hf)⟩
    · obtain ⟨hinv, hpar, hfine⟩ := exec_cancelDither_keeps ((openTurn_keeps t turns).inv hi) hd
      refine ⟨hclose.inv hinv, hclose.par.trans hpar, fun hf => ?_⟩
      obtain hfine | ⟨hrt, hrun, hon, hcancel⟩ := hfine hf
      · exact .inl (hclose.fine hfine)
      · change t.agent = .rt at hrt
        rw [hrt] at hp
        exact .inr ⟨t, turns, form, bytes, left, items, rfl, hrt, hp, hdec, hrun, hon, hdv.trans hcancel⟩

end Sys2Proof.Machine
end

section
/-! PROOF. Unlocked reads and the operation in progress beside them (40_timecode_ops.md R142, 20_memory.md R72): what an act leaves
in the register files does not depend on when it is carried out, so it is what a read has found. -/

namespace Sys2Proof.Machine

/-! ### The same registers in another turn -/

/-- The registers of `s` in the turn of `u`: the time, what stands at the ports, the inputs of the turn, and what the step before
delivered and raised. -/
def State.inTurn (s u : State) : State := { s with
  result := u.result, events := u.events, now := u.now, between := u.between, tears := u.tears, newTx := u.newTx,
  newRx := u.newRx, inProgress := u.inProgress, port := u.port, sched := u.sched }

/-- Two states hold the same in both register files. -/
structure SameFiles (s u : State) : Prop where
  tx : u.tx = s.tx
  rx : u.rx = s.rx

theorem SameFiles.trans {a b c : State} (h : SameFiles a b) (k : SameFiles b c) : SameFiles a c :=
  ⟨k.tx.trans h.tx, k.rx.trans h.rx⟩

theorem SameFiles.symm {a b : State} (h : SameFiles a b) : SameFiles b a := ⟨h.tx.symm, h.rx.symm⟩

variable {s : State} (u : State)

@[simp] theorem State.inTurn_tc (t : File) : (s.inTurn u).tc t = s.tc t := by cases t <;> rfl
@[simp] theorem State.inTurn_holder (l : Lock) : (s.inTurn u).holder l = s.holder l := by cases l <;> rfl
@[simp] theorem State.inTurn_agent : (s.inTurn u).agent = s.agent := rfl

theorem inTurn_sameFiles : SameFiles s (s.inTurn u) := ⟨rfl, rfl⟩

theorem setTc_inTurn_sameFiles (t : File) (v : Timecode) : SameFiles (s.setTc t v) ((s.inTurn u).setTc t v) := by
  cases t <;> exact ⟨rfl, rfl⟩

/-! ### Bodies that write a register file -/

theorem setFpsDf_inTurn (t : File) (code : BitVec 3) (df : Bool) :
    SameFiles (s.setFpsDf t code df) ((s.inTurn u).setFpsDf t code df) := by
  unfold State.setFpsDf
  split
  · cases t <;> exact ⟨rfl, rfl⟩
  · exact ⟨rfl, rfl⟩

theorem loadTime_inTurn (t : File) (v : Time) : SameFiles (s.loadTime t v) ((s.inTurn u).loadTime t v) := by
  by_cases hl : (s.tc t).Loadable v
  · rw [loadTime_of_loadable hl, loadTime_of_loadable (by rwa [State.inTurn_tc]), State.inTurn_tc]
    cases t <;> exact ⟨rfl, rfl⟩
  · rw [loadTime_of_not_loadable hl, loadTime_of_not_loadable (by rwa [State.inTurn_tc])]
    exact ⟨rfl, rfl⟩

theorem fromAscii_inTurn (t : File) (str : List Byte) : SameFiles (s.fromAscii t str) ((s.inTurn u).fromAscii t str) := by
  unfold State.fromAscii
  split
  · exact loadTime_inTurn u t _
  · exact ⟨rfl, rfl⟩

theorem jamLoad_inTurn (k : Nat) : SameFiles (s.jamLoad k) ((s.inTurn u).jamLoad k) := by
  have he : (s.inTurn u).jamLoad k =
      if JamLegal s.rx s.tx then ((s.inTurn u).setTc .tx (Timecode.stepN k (jamCopy s.rx s.tx))).answer (.bool true)
      else ((s.inTurn u).raise .loadReject).answer (.bool false) := rfl
  rw [he, State.jamLoad]
  split <;> exact ⟨rfl, rfl⟩

theorem decPacket_inTurn (w0 w1 : Word) : SameFiles (s.decPacket w0 w1) ((s.inTurn u).decPacket w0 w1) := by
  rw [decPacket_eq, decPacket_eq]
  exact ⟨rfl, rfl⟩

theorem syncChecked_decPacket_inTurn (w0 w1 : Word) :
    SameFiles ((s.setSt (s.st.syncChecked true)).decPacket w0 w1)
      (((s.inTurn u).setSt ((s.inTurn u).st.syncChecked true)).decPacket w0 w1) :=
  decPacket_inTurn (s := s.setSt (s.st.syncChecked true)) u w0 w1

theorem decPacket3_inTurn (x0 x1 x2 : Word) : SameFiles (s.decPacket3 x0 x1 x2) ((s.inTurn u).decPacket3 x0 x1 x2) := by
  unfold State.decPacket3
  split
  · exact syncChecked_decPacket_inTurn u _ _
  · exact ⟨rfl, rfl⟩

theorem decFrame80_inTurn (w0 w1 : Word) (s16 : Half) :
    SameFiles (s.decFrame80 w0 w1 s16) ((s.inTurn u).decFrame80 w0 w1 s16) := by
  unfold State.decFrame80
  split
  · exact syncChecked_decPacket_inTurn u _ _
  · exact ⟨rfl, rfl⟩

/-- The words that an RX_POLL decodes: those under way, or the two oldest of RXQ when RX.lock can be taken. -/
def State.polledWords (s : State) : Option (Word × Word) :=
  match s.rxHeld, s.rxq with
  | some w, _ => some w
  | none, w0 :: w1 :: _ => if s.canLock .rx then some (w0, w1) else none
  | none, _ => none

/-- What RX_POLL leaves in the register files, whatever LINE_RX pushes between its pops. -/
theorem rxPoll_files (s : State) :
    s.rxPoll.tx = s.tx ∧ s.rxPoll.rx = s.polledWords.elim s.rx fun w => (s.decPacket w.1 w.2).rx := by
  obtain ⟨w0, w1, hh, e⟩ | ⟨hh, hq, e⟩ | ⟨hh, w0, w1, q, s1, pushed, hq, f, -, -, -, -, -, -, -, -, c⟩ := rxPoll_cases s
  · have hw : s.polledWords = some (w0, w1) := by simp [State.polledWords, hh]
    rw [e, hw, decPacket_eq, Option.elim_some, decPacket_eq]
    exact ⟨rfl, rfl⟩
  · have hw : s.polledWords = none := by
      rcases hr : s.rxq with - | ⟨w0, - | ⟨w1, q⟩⟩
      · simp [State.polledWords, hh, hr]
      · simp [State.polledWords, hh, hr]
      · simp [hr] at hq
    rw [e, hw]
    exact ⟨rfl, rfl⟩
  · have hw : s.polledWords = if s.canLock .rx then some (w0, w1) else none := by simp [State.polledWords, hh, hq]
    have htx : s1.tx = s.tx := f.tx
    have hrx : s1.rx = s.rx := f.rx
    have hpar : s1.par = s.par := f.par
    obtain ⟨hl, e⟩ | ⟨hl, e⟩ := c <;> rw [e, hw, hl]
    · rw [decPacket_eq]
      refine ⟨htx, ?_⟩
      simp only [if_true, Option.elim_some]
      rw [decPacket_eq]
      simp only [State.answer, hrx, hpar]
    · exact ⟨htx, hrx⟩

theorem rxPoll_inTurn : SameFiles s.rxPoll (s.inTurn u).rxPoll := by
  obtain ⟨htx, hrx⟩ := rxPoll_files s
  obtain ⟨htx', hrx'⟩ := rxPoll_files (s.inTurn u)
  refine ⟨htx'.trans htx.symm, ?_⟩
  rw [hrx', hrx]
  show s.polledWords.elim s.rx _ = _
  cases s.polledWords with
  | none => rfl
  | some w => exact (decPacket_inTurn u w.1 w.2).rx

theorem txFrame_rx (s : State) : s.txFrame.rx = s.rx := by
  have h := congrArg State.rx s.txFrame_writes
  exact h

theorem txFrame_inTurn : SameFiles s.txFrame (s.inTurn u).txFrame :=
  ⟨rfl, (txFrame_rx _).trans (txFrame_rx s).symm⟩

/-! ### START -/

/-- With room for its packet and no LINE step in it, TX_FRAME pushes it whole (41_ltc_encoder.md R176). -/
theorem txFrame_alone (hb : s.between = []) (hroom : s.txq.length + wordsNeeded s.syncph ≤ 8) : s.txFrame = { s with
    tx := s.tx.next, syncph := !s.syncph, txq := s.txq ++ encPacketOf s.par s.tx s.syncph
    echoq := pushWord s.par.echoqDepth s.echoq s.tx.raw, result := .none } := by
  have hpush : pushPacket (encPacketOf s.par s.tx s.syncph) s.between (s.pushEcho s.tx.raw) = { s.pushEcho s.tx.raw with
      txq := s.txq ++ encPacketOf s.par s.tx s.syncph } := by
    rw [hb]
    exact pushPacket_alone _ _ (by rw [encPacketOf_length]; exact hroom)
  unfold State.txFrame
  dsimp only
  rw [hpush]
  rfl

/-- The prefill leaves the same TX in whatever turn it falls. -/
theorem prefill_inTurn_tx : ∀ (k : Nat) {s u : State}, s.between = [] → u.between = [] →
    (prefill k (s.inTurn u)).tx = (prefill k s).tx
  | 0, _, _, _, _ => rfl
  | k + 1, s, u, hs, hu => by
    by_cases hw : belowWatermark s = true
    · have hroom := room_of_belowWatermark hw
      have hw' : belowWatermark (s.inTurn u) = true := hw
      have hstep : (s.inTurn u).txFrame = s.txFrame.inTurn { u with result := .none } := by
        rw [txFrame_alone hs hroom, txFrame_alone (s := s.inTurn u) hu hroom]
        rfl
      have hbetween : s.txFrame.between = [] := by rw [txFrame_alone hs hroom]; exact hs
      rw [prefill, prefill, if_pos hw, if_pos hw', hstep]
      exact prefill_inTurn_tx k hbetween hu
    · have hw' : ¬belowWatermark (s.inTurn u) = true := hw
      rw [prefill, prefill, if_neg hw, if_neg hw']
      rfl

theorem microAdjust_tx (s : State) (c : CalArg) (P : Int) : (s.microAdjust c P).tx = s.tx := by
  have h := congrArg State.tx (State.microAdjust_writes s c P none)
  exact h

theorem startIn_tx (s : State) (m : Mode) :
    (s.startIn m).tx = (prefill Config.txWatermark { s.clearSession with between := [] }).tx :=
  microAdjust_tx _ _ _

theorem start_rx (s : State) (arg : ModeArg) : (s.start arg).rx = s.rx := by
  have h := congrArg State.rx (s.start_writes arg)
  exact h

theorem start_tx (s : State) (arg : ModeArg) : (s.start arg).tx =
    if running s.mode then s.tx else (runningMode s.par.jamMax arg).elim s.tx fun m => (s.startIn m).tx := by
  unfold State.start
  split
  · rfl
  · split
    · next m hm => rw [hm]; rfl
    · next hm => rw [hm]; rfl

theorem start_inTurn (arg : ModeArg) : SameFiles (s.start arg) ((s.inTurn u).start arg) := by
  refine ⟨?_, (start_rx _ arg).trans (start_rx s arg).symm⟩
  have hprefill : ∀ m, ((s.inTurn u).startIn m).tx = (s.startIn m).tx := fun m => by
    rw [startIn_tx, startIn_tx]
    exact prefill_inTurn_tx (s := { s.clearSession with between := [] }) (u := { u with between := [] }) Config.txWatermark
      rfl rfl
  rw [start_tx, start_tx]
  simp only [hprefill]
  rfl

/-! ### Operations -/

/-- What the shared shape answers in another turn, where its guard does not see the turn. -/
theorem issue_inTurn {i : Instr} {ready : Bool} {body body' : State → State} {d : State} {o o' : Out}
    (e : o = issue i ready body s) (e' : o' = issue i ready body' (s.inTurn u)) (h : o = .next d)
    (hb : SameFiles (body s.opened) (body' (s.opened.inTurn u.opened))) : ∃ d', o' = .next d' ∧ SameFiles d d' := by
  obtain ⟨hp, ⟨hr, rfl⟩ | ⟨hr, rfl⟩⟩ := issue_next (e ▸ h)
  · exact ⟨_, e'.trans (issue_ready hp hr), hb⟩
  · exact ⟨_, e'.trans (issue_held hp hr), ⟨rfl, rfl⟩⟩

/-- An operation that writes no register file leaves them as they are. -/
theorem exec_sameFiles {i : Instr} {d : State} (htx : ∀ T D : Timecode, T.withWritesOf D .tx i = T)
    (hrx : ∀ T D : Timecode, T.withWritesOf D .rx i = T) (h : exec i s = .next d) : SameFiles s d := by
  have hw := exec_writes h
  rw [hw]
  exact ⟨htx _ _, hrx _ _⟩

/-- An operation that writes no register file answers in another turn where it answers in this one, whatever its guard says. -/
theorem exec_inTurn_of_kept {i : Instr} {ready ready' : Bool} {body body' : State → State} {d : State}
    (htx : ∀ T D : Timecode, T.withWritesOf D .tx i = T) (hrx : ∀ T D : Timecode, T.withWritesOf D .rx i = T)
    (e : exec i s = issue i ready body s) (e' : exec i (s.inTurn u) = issue i ready' body' (s.inTurn u))
    (h : exec i s = .next d) : ∃ d', exec i (s.inTurn u) = .next d' ∧ SameFiles d d' := by
  have hp := (issue_next (e ▸ h)).1
  obtain ⟨d', h'⟩ : ∃ d', exec i (s.inTurn u) = .next d' := by
    cases hr : ready' with
    | true => exact ⟨_, e'.trans (issue_ready hp hr)⟩
    | false => exact ⟨_, e'.trans (issue_held hp hr)⟩
  exact ⟨d', h', (exec_sameFiles htx hrx h).symm.trans ((inTurn_sameFiles u).trans (exec_sameFiles htx hrx h'))⟩

theorem acquire_inTurn {l : Lock} {d : State} (h : exec (.acquire l) s = .next d) :
    ∃ d', exec (.acquire l) (s.inTurn u) = .next d' ∧ SameFiles d d' := by
  by_cases hself : s.holder l = some s.agent
  · cases hp : permits (.acquire l) s <;> simp [exec, execAcquire, issue, hself, hp] at h
  · have e' : exec (.acquire l) (s.inTurn u) =
        issue (.acquire l) (s.holder l == none) (fun s => s.setHolder l (some s.agent)) (s.inTurn u) := by
      rw [exec_acquire_free (by simpa using hself), State.inTurn_holder]
    exact issue_inTurn u (exec_acquire_free hself) e' h (by cases l <;> exact ⟨rfl, rfl⟩)

theorem release_inTurn {l : Lock} {d : State} (h : exec (.release l) s = .next d) :
    ∃ d', exec (.release l) (s.inTurn u) = .next d' ∧ SameFiles d d' := by
  obtain ⟨-, hself, -⟩ := exec_release_next h
  exact issue_inTurn u (exec_release_held hself) (exec_release_held (by simpa using hself)) h
    (by cases l <;> exact ⟨rfl, rfl⟩)

/-- Whether an operation answers does not depend on the turn (60_exceptions.md R291, 44_engine_control.md R254), nor does what it
leaves in the register files. -/
theorem exec_inTurn {i : Instr} {d : State} (h : exec i s = .next d) : ∃ d', exec i (s.inTurn u) = .next d' ∧ SameFiles d d' := by
  cases i with
  | setFpsDf t code df => exact issue_inTurn u (exec_setFpsDf s t code df) (exec_setFpsDf _ t code df) h (setFpsDf_inTurn _ t code df)
  | loadTc t hh mm ss ff =>
    exact issue_inTurn u (exec_loadTc s t hh mm ss ff) (exec_loadTc _ t hh mm ss ff) h (loadTime_inTurn _ t _)
  | fromAscii t str => exact issue_inTurn u (exec_fromAscii s t str) (exec_fromAscii _ t str) h (fromAscii_inTurn _ t str)
  | nextFrame t => exact issue_inTurn u (exec_nextFrame s t) (exec_nextFrame _ t) h (by cases t <;> exact ⟨rfl, rfl⟩)
  | prevFrame t => exact issue_inTurn u (exec_prevFrame s t) (exec_prevFrame _ t) h (by cases t <;> exact ⟨rfl, rfl⟩)
  | setUb t n1 n2 n3 n4 n5 n6 n7 n8 =>
    exact issue_inTurn u (exec_setUb s t n1 n2 n3 n4 n5 n6 n7 n8) (exec_setUb _ t n1 n2 n3 n4 n5 n6 n7 n8) h
      (by cases t <;> exact ⟨rfl, rfl⟩)
  | setFlags t cf clk bgf0 bgf2 =>
    exact issue_inTurn u (exec_setFlags s t cf clk bgf0 bgf2) (exec_setFlags _ t cf clk bgf0 bgf2) h
      (by cases t <;> exact ⟨rfl, rfl⟩)
  | txFrame => exact issue_inTurn u (exec_txFrame s) (exec_txFrame _) h (txFrame_inTurn _)
  | decPacket w0 w1 => exact issue_inTurn u (exec_decPacket s w0 w1) (exec_decPacket _ w0 w1) h (decPacket_inTurn _ w0 w1)
  | decPacket3 x0 x1 x2 =>
    exact issue_inTurn u (exec_decPacket3 s x0 x1 x2) (exec_decPacket3 _ x0 x1 x2) h (decPacket3_inTurn _ x0 x1 x2)
  | decFrame80 w0 w1 s16 =>
    exact issue_inTurn u (exec_decFrame80 s w0 w1 s16) (exec_decFrame80 _ w0 w1 s16) h (decFrame80_inTurn _ w0 w1 s16)
  | rxPoll => exact issue_inTurn u (exec_rxPoll s) (exec_rxPoll _) h (rxPoll_inTurn _)
  | start arg => exact issue_inTurn u (exec_start s arg) (exec_start _ arg) h (start_inTurn _ arg)
  | jamLoad k => exact issue_inTurn u (exec_jamLoad s k) (exec_jamLoad _ k) h (jamLoad_inTurn _ k)
  | toRaw t => exact issue_inTurn u (exec_toRaw s t) (exec_toRaw _ t) h ⟨rfl, rfl⟩
  | toAscii t => exact issue_inTurn u (exec_toAscii s t) (exec_toAscii _ t) h ⟨rfl, rfl⟩
  | readRawStable t => exact issue_inTurn u (exec_readRawStable s t) (exec_readRawStable _ t) h ⟨rfl, rfl⟩
  | encPacket b => exact issue_inTurn u (exec_encPacket s b) (exec_encPacket _ b) h ⟨rfl, rfl⟩
  | cancelDither => exact issue_inTurn u (exec_cancelDither s) (exec_cancelDither _) h ⟨rfl, rfl⟩
  | stop => exact issue_inTurn u (exec_stop s) (exec_stop _) h ⟨rfl, rfl⟩
  | microAdjust c P =>
    exact exec_inTurn_of_kept u (fun _ _ => rfl) (fun _ _ => rfl) (exec_microAdjust s c P) (exec_microAdjust _ c P) h
  | mainFire =>
    exact exec_inTurn_of_kept u (fun _ _ => rfl) (fun _ _ => rfl) (exec_mainFire s) (exec_mainFire _) h
  | safeFire =>
    exact exec_inTurn_of_kept u (fun _ _ => rfl) (fun _ _ => rfl) (exec_safeFire s) (exec_safeFire _) h
  | loadCal c P =>
    exact exec_inTurn_of_kept u (fun _ _ => rfl) (fun _ _ => rfl) (exec_loadCal s c P) (exec_loadCal _ c P) h
  | setMode arg =>
    exact exec_inTurn_of_kept u (fun _ _ => rfl) (fun _ _ => rfl) (exec_setMode s arg) (exec_setMode _ arg) h
  | lineTxPop =>
    exact exec_inTurn_of_kept u (fun _ _ => rfl) (fun _ _ => rfl) (exec_lineTxPop s) (exec_lineTxPop _) h
  | lineRxPush w =>
    exact exec_inTurn_of_kept u (fun _ _ => rfl) (fun _ _ => rfl) (exec_lineRxPush s w) (exec_lineRxPush _ w) h
  | acquire l => exact acquire_inTurn u h
  | release l => exact release_inTurn u h
  | ltcW0 | ltcW1 | p3X0 | p3X1 | p3X2 | sync16 | raw32 => cases h

/-! ### Acts at the ports -/

/-- What answers in one turn answers in any other, and leaves the same in the register files. -/
def TurnBlind (f : State → Out) : Prop :=
  ∀ (s u : State) {d : State}, f s = .next d → ∃ d', f (s.inTurn u) = .next d' ∧ SameFiles d d'

theorem turnBlind_exec (i : Instr) : TurnBlind (exec i) := fun _ u _ h => exec_inTurn u h

theorem turnBlind_refused (e : State → Refusal) : TurnBlind fun s => .refused (e s) := fun _ _ _ h => nomatch h

/-- A body that writes no register file, taken at once. -/
theorem turnBlind_next {body : State → State} (hb : ∀ s, SameFiles s (body s)) : TurnBlind fun s => .next (body s) := by
  intro s u d h
  cases h
  exact ⟨_, rfl, (hb s).symm.trans ((inTurn_sameFiles u).trans (hb _))⟩

/-- A test that reads no more than the registers. -/
theorem TurnBlind.ite {c : State → Prop} [DecidablePred c] {f g : State → Out} (hc : ∀ s u : State, c (s.inTurn u) ↔ c s)
    (hf : TurnBlind f) (hg : TurnBlind g) : TurnBlind fun s => if c s then f s else g s := by
  intro s u d h
  by_cases hs : c s
  · obtain ⟨d', h', k⟩ := hf s u ((if_pos hs).symm.trans h)
    exact ⟨d', (if_pos ((hc s u).mpr hs)).trans h', k⟩
  · obtain ⟨d', h', k⟩ := hg s u ((if_neg hs).symm.trans h)
    exact ⟨d', (if_neg fun hu => hs ((hc s u).mp hu)).trans h', k⟩

theorem turnBlind_opened : TurnBlind fun s => .next s.opened := turnBlind_next fun _ => ⟨rfl, rfl⟩

theorem turnBlind_heldUp : TurnBlind fun s => .next s.heldUp := turnBlind_next fun _ => ⟨rfl, rfl⟩

theorem turnBlind_poll : TurnBlind poll :=
  .ite (fun _ _ => .rfl) (.ite (fun _ _ => .rfl) (turnBlind_exec .rxPoll) turnBlind_opened) (turnBlind_refused _)

theorem turnBlind_refill : TurnBlind refill :=
  .ite (fun _ _ => .rfl) (.ite (fun _ _ => .rfl) (turnBlind_exec .txFrame) turnBlind_opened) (turnBlind_refused _)

theorem turnBlind_stopCheck : TurnBlind stopCheck :=
  .ite (fun _ _ => .rfl)
    (.ite (fun _ _ => .rfl)
      (.ite (fun _ _ => .rfl) (turnBlind_next (body := fun s => s.opened.finishStop) fun _ => ⟨rfl, rfl⟩) turnBlind_heldUp)
      turnBlind_opened)
    (turnBlind_refused _)

theorem turnBlind_echoPop : TurnBlind echoPop := by
  intro s u d h
  obtain ⟨ha, ⟨w, q, hq, rfl⟩ | ⟨hq, rfl⟩⟩ := echoPop_next h
  · exact ⟨_, echoPop_of_cons (s := s.inTurn u) ha hq, ⟨rfl, rfl⟩⟩
  · exact ⟨_, echoPop_of_nil (s := s.inTurn u) ha hq, ⟨rfl, rfl⟩⟩

theorem turnBlind_rebuild : TurnBlind rebuild := by
  intro s u d h
  obtain ⟨ha, hr, rfl⟩ := rebuild_next h
  exact ⟨_, if_pos ⟨ha, hr⟩, ⟨rfl, rfl⟩⟩

theorem turnBlind_underOneHold (i : Instr) (t : File) (n : Nat) (step : Timecode → Timecode) :
    TurnBlind fun s => underOneHold i t n (step (s.tc t)) s := by
  refine .ite (fun _ _ => .rfl) turnBlind_opened fun s u d h => ?_
  have hl : (s.inTurn u).canLock (fileLock t) = s.canLock (fileLock t) := by simp [State.canLock]
  refine issue_inTurn u rfl (by rw [hl, State.inTurn_tc]) h ?_
  exact setTc_inTurn_sameFiles u.opened t (step (s.tc t))

/-- Whether an act answers does not depend on the turn, nor does what it leaves in the register files: the time, the LINE steps that
fall into it, and what else stands at the ports are not read into them. -/
theorem turnBlind_perform (act : Act) : TurnBlind (perform act) := by
  cases act with
  | op form bytes =>
    intro s u d h
    simp only [perform] at h ⊢
    split at h
    · exact exec_inTurn u h
    · cases h
  | echoPop => exact turnBlind_echoPop
  | poll => exact turnBlind_poll
  | refill => exact turnBlind_refill
  | stopCheck => exact turnBlind_stopCheck
  | stepCount t n => exact turnBlind_underOneHold (.nextFrame t) t n (Timecode.stepN n)
  | prevFrameCount t n => exact turnBlind_underOneHold (.prevFrame t) t n (Timecode.prevN n)
  | rebuild => exact turnBlind_rebuild

/-! ### Held acts and unlocked reads -/

/-- A held act has written no register file. -/
theorem perform_held_sameFiles {act : Act} {d : State} (h : perform act s = .next d) (hr : d.result = .held) :
    SameFiles s d := by
  obtain rfl | ⟨-, -, rfl⟩ := perform_held h hr
  · exact ⟨rfl, rfl⟩
  · obtain ⟨-, -, w0, w1, q, pushed, -, e⟩ := State.rxPoll_held (by simp) hr
    rw [e]
    exact ⟨rfl, rfl⟩

theorem isUnlockedRead_iff (act : Act) : isUnlockedRead act = true ↔
    ∃ form bytes left f, act = .op form bytes ∧ decode form bytes = some (.readRawStable f, left) := by
  refine ⟨fun h => ?_, ?_⟩
  · unfold isUnlockedRead at h
    split at h
    · next form bytes =>
      split at h
      · next f left hd => exact ⟨form, bytes, left, f, rfl, hd⟩
      · cases h
    all_goals cases h
  · rintro ⟨form, bytes, left, f, rfl, hd⟩
    exact (isUnlockedRead_op_iff hd).mpr ⟨f, rfl⟩

/-- An unlocked read delivers a word and does nothing else. -/
theorem perform_unlockedRead {act : Act} {d : State} (hu : isUnlockedRead act = true) (h : perform act s = .next d) :
    ∃ w, d = s.opened.answer (.word w) := by
  obtain ⟨form, bytes, left, f, rfl, hd⟩ := (isUnlockedRead_iff act).mp hu
  rw [perform_op hd] at h
  obtain ⟨-, ⟨-, rfl⟩ | ⟨hr, -⟩⟩ := issue_next (exec_readRawStable s f ▸ h)
  · exact ⟨_, rfl⟩
  · cases hr

/-! ### The operation in progress -/

/-- The state in which an agent's operation in progress is run: no LINE step falls into it, and its own
unlocked reads find the present value. -/
def State.asWriter (s : State) (b : Agent) : State := { s with agent := b, between := [], tears := [] }

theorem afterWriter_of_perform {b : Agent} {it : Item} {later : List Item} {d : State} (hb : b ≠ s.agent)
    (hp : takeFirst b s.port = some (it, later)) (ha : it.act ≠ .rebuild)
    (hd : perform it.act (s.asWriter b) = .next d) : afterWriter s (some b) = d := by
  rw [State.asWriter] at hd
  simp [afterWriter, hb, hp, ha, hd]

/-- Where an operation in progress is seen, it is the first item of another agent, and no rebuild. -/
theorem afterWriter_cases (s : State) (writer : Option Agent) : afterWriter s writer = s ∨
    ∃ b it later, writer = some b ∧ b ≠ s.agent ∧ takeFirst b s.port = some (it, later) ∧ it.act ≠ .rebuild ∧
      perform it.act (s.asWriter b) = .next (afterWriter s writer) := by
  cases writer with
  | none => exact .inl rfl
  | some b =>
    by_cases hb : b = s.agent
    · exact .inl (afterWriter_of_none_or_self (.inr (by rw [hb])))
    · cases hp : takeFirst b s.port with
      | none => exact .inl (by simp [afterWriter, hb, hp])
      | some x =>
        by_cases ha : x.1.act = .rebuild
        · exact .inl (by simp [afterWriter, hb, hp, ha])
        · cases hd : perform x.1.act (s.asWriter b) with
          | next d =>
            refine .inr ⟨b, x.1, x.2, rfl, hb, hp, ha, ?_⟩
            rw [afterWriter_of_perform hb hp ha hd]
            exact hd
          | fault e => cases e
          | refused e =>
            rw [State.asWriter] at hd
            exact .inl (by simp [afterWriter, hb, hp, ha, hd])

theorem takeFirst_cons_of_eq {a : Agent} {it : Item} (h : it.agent = a) (items : List Item) :
    takeFirst a (it :: items) = some (it, items) := if_pos h

theorem takeFirst_cons_of_ne {a : Agent} {it : Item} (h : it.agent ≠ a) (items : List Item) :
    takeFirst a (it :: items) = (takeFirst a items).map fun p => (p.1, it :: p.2) := by
  rw [takeFirst, if_neg h]
  cases takeFirst a items <;> rfl

/-- What an agent takes from the ports does not change what another finds there first. -/
theorem takeFirst_other {a b : Agent} (hne : b ≠ a) : ∀ {items rest later : List Item} {x y : Item},
    takeFirst a items = some (x, rest) → takeFirst b items = some (y, later) → ∃ later', takeFirst b rest = some (y, later')
  | [], _, _, _, _, h, _ => nomatch h
  | it :: items, rest, later, x, y, h, k => by
    by_cases ha : it.agent = a
    · rw [takeFirst_cons_of_eq ha] at h
      cases h
      rw [takeFirst_cons_of_ne (by rw [ha]; exact hne.symm), Option.map_eq_some_iff] at k
      obtain ⟨⟨y', later'⟩, k, e⟩ := k
      cases e
      exact ⟨later', k⟩
    · rw [takeFirst_cons_of_ne ha, Option.map_eq_some_iff] at h
      obtain ⟨⟨x', rest'⟩, h, e⟩ := h
      cases e
      by_cases hb : it.agent = b
      · rw [takeFirst_cons_of_eq hb] at k
        cases k
        exact ⟨rest', takeFirst_cons_of_eq hb rest'⟩
      · rw [takeFirst_cons_of_ne hb, Option.map_eq_some_iff] at k
        obtain ⟨⟨y', later'⟩, k, e⟩ := k
        cases e
        obtain ⟨l, hl⟩ := takeFirst_other hne h k
        exact ⟨it :: l, by rw [takeFirst_cons_of_ne hb, hl]; rfl⟩

/-! ### What a turn finds in progress, and sets in progress -/

/-- The state in which an agent's turn begins, before what its unlocked reads find is in place. -/
def State.begun (s : State) (t : Turn) (turns : List Turn) : State := { s with
  sched := turns, now := s.now + t.elapsed, agent := t.agent, between := t.between, tears := t.tears }

theorem State.openTurn_eq (s : State) (t : Turn) (turns : List Turn) : s.openTurn t turns = { s.begun t turns with
    newTx := (afterWriter (s.begun t turns) (writerOf s t)).tx.rawFields
    newRx := (afterWriter (s.begun t turns) (writerOf s t)).rx.rawFields } := rfl

variable {t : Turn} {turns : List Turn}

/-- A read that can find a field in change has beside it another agent's first item, and finds what that leaves. -/
theorem openTurn_raw_found
    (hn : (s.openTurn t turns).newTx ≠ s.tx.rawFields ∨ (s.openTurn t turns).newRx ≠ s.rx.rawFields) :
    ∃ b it later d, writerOf s t = some b ∧ b ≠ t.agent ∧ takeFirst b s.port = some (it, later) ∧ it.act ≠ .rebuild ∧
      perform it.act ((s.begun t turns).asWriter b) = .next d ∧
      (s.openTurn t turns).newTx = d.tx.rawFields ∧ (s.openTurn t turns).newRx = d.rx.rawFields := by
  obtain e | ⟨b, it, later, hw, hb, hp, ha, hd⟩ := afterWriter_cases (s.begun t turns) (writerOf s t)
  · rw [State.openTurn_eq, e] at hn
    exact absurd hn (by simp [State.begun])
  · exact ⟨b, it, later, _, hw, hb, hp, ha, hd, rfl, rfl⟩

/-- What the operation in progress leaves when it is run now is what a turn of another agent finds of it. -/
theorem openTurn_raw_of_perform {b : Agent} {it : Item} {later : List Item} {d : State} (hw : writerOf s t = some b)
    (hb : b ≠ t.agent) (hp : takeFirst b s.port = some (it, later)) (ha : it.act ≠ .rebuild)
    (hd : perform it.act (s.asWriter b) = .next d) :
    (s.openTurn t turns).newTx = d.tx.rawFields ∧ (s.openTurn t turns).newRx = d.rx.rawFields := by
  obtain ⟨e, he, k⟩ := turnBlind_perform it.act (s.asWriter b) ((s.begun t turns).asWriter b) hd
  have hafter : afterWriter (s.begun t turns) (some b) = e := afterWriter_of_perform hb hp ha he
  rw [State.openTurn_eq, hw, hafter]
  exact ⟨congrArg Timecode.rawFields k.tx, congrArg Timecode.rawFields k.rx⟩

theorem progressAfter_eq_some {before : State} {act : Act} {writer : Option Agent} {b : Agent}
    (h : progressAfter before act writer = some b) : isUnlockedRead act = true ∧
      (before.newTx ≠ before.tx.rawFields ∨ before.newRx ≠ before.rx.rawFields) ∧ writer = some b := by
  unfold progressAfter at h
  split at h
  · next hc => exact ⟨hc.1, hc.2, h⟩
  · cases h

/-- Only an unlocked read sets an operation in progress. -/
theorem runTurn_sets_progress {s' : State} {b : Agent} (hn : s.inProgress = none) (h : runTurn t turns s = .next s')
    (hb : s'.inProgress = some b) : ∃ it items w, takeFirst t.agent s.port = some (it, items) ∧ isUnlockedRead it.act = true ∧
      ((s.openTurn t turns).newTx ≠ s.tx.rawFields ∨ (s.openTurn t turns).newRx ≠ s.rx.rawFields) ∧ writerOf s t = some b ∧
      s' = { (s.openTurn t turns).opened.answer (.word w) with port := items, inProgress := some b } := by
  have hnone : ∀ u : State, u.inProgress = s.inProgress → u.inProgress ≠ some b := fun u hu hs => by
    rw [hu, hn] at hs
    cases hs
  obtain ⟨-, rfl⟩ | ⟨it, items, hp, ⟨-, rfl⟩ | ⟨-, d, hd, rfl⟩⟩ := runTurn_next h
  · exact absurd hb (hnone _ rfl)
  · exact absurd hb (hnone _ rfl)
  · by_cases hr : d.result = .held
    · rw [State.closeTurn_of_held hr] at hb
      exact absurd hb (hnone _ rfl)
    · rw [State.closeTurn_of_done hr] at hb ⊢
      obtain ⟨hu, hraw, hw⟩ := progressAfter_eq_some hb
      obtain ⟨w, rfl⟩ := perform_unlockedRead hu hd
      refine ⟨it, items, w, hp, hu, hraw, hw, ?_⟩
      rw [progressAfter_of_read hu hraw, hw]

/-- While another agent's operation is in progress a turn writes no register file and does not end it. -/
theorem runTurn_beside_progress {s' : State} {b : Agent} (hb : s.inProgress = some b) (hne : t.agent ≠ b)
    (hraw : (s.openTurn t turns).newTx ≠ s.tx.rawFields ∨ (s.openTurn t turns).newRx ≠ s.rx.rawFields)
    (h : runTurn t turns s = .next s') : s'.inProgress = some b ∧ s'.tx = s.tx ∧ s'.rx = s.rx := by
  obtain ⟨-, rfl⟩ | ⟨it, items, hp, ⟨-, rfl⟩ | ⟨hm, d, hd, rfl⟩⟩ := runTurn_next h
  · exact ⟨hb, rfl, rfl⟩
  · exact ⟨hb, rfl, rfl⟩
  · have hu : isUnlockedRead it.act = true := by
      obtain (h1 | h1) | h1 := (mayAct_iff _ _).mp hm
      · exact absurd (hb.symm.trans h1) nofun
      · exact absurd (Option.some.inj (h1.symm.trans hb)) hne
      · exact h1
    obtain ⟨w, rfl⟩ := perform_unlockedRead hu hd
    have hw : writerOf s t = some b := by simp [writerOf, hb]
    rw [State.closeTurn_of_done (by simp), progressAfter_of_read hu hraw]
    exact ⟨hw, rfl, rfl⟩

/-- The agent's own turn carries its operation in progress out, to what it leaves when it is run now. -/
theorem runTurn_completes_progress {it : Item} {later : List Item} {d : State} (hb : s.inProgress = some t.agent)
    (hp : takeFirst t.agent s.port = some (it, later)) (hd : perform it.act (s.asWriter t.agent) = .next d)
    (hraw : d.tx.rawFields ≠ s.tx.rawFields ∨ d.rx.rawFields ≠ s.rx.rawFields) :
    ∃ s', runTurn t turns s = .next s' ∧ s'.inProgress = none ∧
      s'.tx.rawFields = d.tx.rawFields ∧ s'.rx.rawFields = d.rx.rawFields := by
  obtain ⟨e, he, k⟩ : ∃ e, perform it.act (s.openTurn t turns) = .next e ∧ SameFiles d e :=
    turnBlind_perform it.act (s.asWriter t.agent) (s.openTurn t turns) hd
  have hdone : e.result ≠ .held := fun hr => by
    have hkept := (perform_held_sameFiles he hr).trans k.symm
    have htx : d.tx = s.tx := hkept.tx
    have hrx : d.rx = s.rx := hkept.rx
    rw [htx, hrx] at hraw
    exact hraw.elim (· rfl) (· rfl)
  have hm : mayAct (s.openTurn t turns) it.act = true := (mayAct_iff _ _).mpr (.inl (.inr hb))
  have hprogress : progressAfter (s.openTurn t turns) it.act (writerOf s t) = none :=
    progressAfter_eq_none (.inr (State.openTurn_raw_of_none_or_self (.inr (by simp [writerOf, hb])) turns))
  refine ⟨_, runTurn_of_next hp hm he, ?_⟩
  rw [State.closeTurn_of_done hdone, hprogress]
  exact ⟨rfl, congrArg Timecode.rawFields k.tx, congrArg Timecode.rawFields k.rx⟩

/-- Settles O6: what an act leaves in the register files does not depend on the turn, so what a read has found of the operation in
progress is what its agent's own turn leaves; until then no other turn writes them. -/
theorem readsSeeCommittedOperations : Obligations.ReadsSeeCommittedOperations := by
  unfold Obligations.ReadsSeeCommittedOperations
  intro s t turns b hs
  rw [step_of_sched_cons hs]
  refine ⟨fun s' hn h hb => ?_, fun it later d hb hp ha hd hraw => ⟨fun hne s' h => ?_, ?_⟩⟩
  · obtain ⟨it, items, w, hp, hu, hraw, hw, rfl⟩ := runTurn_sets_progress hn h hb
    obtain ⟨b', it', later, d, hw', hne, hp', ha', hd, htx, hrx⟩ := openTurn_raw_found hraw
    obtain rfl : b' = b := Option.some.inj (hw'.symm.trans hw)
    obtain ⟨form, bytes, left, f, hact, hdec⟩ := (isUnlockedRead_iff _).mp hu
    obtain ⟨later', hlater⟩ := takeFirst_other hne hp hp'
    obtain ⟨d', hd', k⟩ := turnBlind_perform it'.act ((s.begun t turns).asWriter b')
      (({ (s.openTurn t turns).opened.answer (.word w) with port := items, inProgress := some b' } : State).asWriter b') hd
    have hitem : it = ⟨t.agent, .op form bytes⟩ := by rw [← (takeFirst_some hp).1, ← hact]
    refine ⟨?_, hne, rfl, rfl, ⟨form, bytes, left, f, items, hitem ▸ hp, hdec⟩, it', later', d', hlater, ha', hd', ?_, ?_⟩
    · rwa [writerOf_eq, if_pos hn] at hw
    · exact htx.trans (congrArg Timecode.rawFields k.tx.symm)
    · exact hrx.trans (congrArg Timecode.rawFields k.rx.symm)
  · have hw : writerOf s t = some b := by simp [writerOf, hb]
    obtain ⟨htx, hrx⟩ := openTurn_raw_of_perform (turns := turns) hw hne.symm hp ha hd
    exact runTurn_beside_progress hb hne (by rwa [htx, hrx]) h
  · rintro rfl
    exact runTurn_completes_progress hb hp hd hraw

end Sys2Proof.Machine
end

section
/-! PROOF. The LTC encoder (41_ltc_encoder.md): the packets that ENC_PACKET delivers and TX_FRAME pushes (R174, R176), the pop of
the line encoder (R178), and the line stream that they put together (R179). -/

namespace Sys2Proof.Machine

/-! ### ENC_PACKET (R174) -/

/-- The words of a packet in either form, as 30_encoding.md R101 and R102 join them. -/
theorem encPacketOf_words (p : Params) (S : Timecode) (sendSync : Bool) : encPacketOf p S sendSync =
    if sendSync = true then
      [0x0000BFFC#32 ||| ((encParity p S).1.extractLsb' 0 16).setWidth 32 <<< 16,
        ((encParity p S).1.extractLsb' 16 16).setWidth 32 ||| ((encParity p S).2.extractLsb' 0 16).setWidth 32 <<< 16,
        ((encParity p S).2.extractLsb' 16 16).setWidth 32 ||| 0x0000BFFC#32 <<< 16]
    else [(encParity p S).1, (encParity p S).2] := by
  have h3 := (syncPacketOnTheLine.2 (encParity p S).1 (encParity p S).2).1
  rw [← h3]
  rfl

/-- Settles O27: the operation delivers its snapshot's packet, in either form. -/
theorem encPacketDeliversWords : Obligations.EncPacketDeliversWords := by
  unfold Obligations.EncPacketDeliversWords
  intro s sendSync hp hl W0 W1
  rw [exec_encPacket, issue_ready hp hl]
  exact congrArg (fun ws => Host.Outcome.next (s.opened.answer (.words ws))) (encPacketOf_words s.par s.tx sendSync)

/-! ### LINE_TX_POP (R178) -/

theorem lineTxPop_of_cons {s : State} {w : Word} {q : List Word} (h : s.txq = w :: q) :
    s.lineTxPop = { s with result := .word w, txq := q, lineWords := s.lineWords ++ [w] } := by
  simp only [State.lineTxPop, h, State.answer]

theorem lineTxPop_of_nil {s : State} (h : s.txq = []) : s.lineTxPop = s.enterUnderflow := by
  simp only [State.lineTxPop, h]

/-- Settles O31: the two bodies of the pop in a running engine, and the hold of a stopped one. -/
theorem lineTxPopOrUnderflow : Obligations.LineTxPopOrUnderflow := by
  unfold Obligations.LineTxPopOrUnderflow
  intro s hp
  rw [exec_lineTxPop]
  refine ⟨fun w q hr hq => ?_, fun hr hq => ?_, fun hr => issue_held hp hr⟩
  · rw [issue_ready hp (show lineEnabled s = true from hr), lineTxPop_of_cons (s := s.opened) hq]
    rfl
  · rw [issue_ready hp (show lineEnabled s = true from hr), lineTxPop_of_nil (s := s.opened) hq]
    rfl

/-- A LINE_TX_POP that delivers a word has moved it from TXQ to the line, and nothing else. -/
theorem exec_lineTxPop_word {s s' : State} {w : Word} (h : exec .lineTxPop s = .next s') (hw : s'.result = .word w) :
    ∃ q, s.txq = w :: q ∧ s' = { s with
      result := .word w, events := [], txq := q, lineWords := s.lineWords ++ [w] } := by
  rw [exec_lineTxPop] at h
  obtain ⟨-, ⟨-, rfl⟩ | ⟨-, rfl⟩⟩ := issue_next h
  · cases hq : s.txq with
    | nil =>
      rw [lineTxPop_of_nil (s := s.opened) hq] at hw
      cases hw
    | cons v q =>
      rw [lineTxPop_of_cons (s := s.opened) hq] at hw ⊢
      cases hw
      exact ⟨q, rfl, rfl⟩
  · cases hw

/-! ### TX_FRAME (R176) -/

theorem txFrameReady_of_room {s : State} (hr : running s.mode = true) (hq : s.stopReq = false)
    (hroom : s.txq.length + 2 + s.syncph.toNat ≤ 8) (hl : s.canLock .tx = true) : txFrameReady s = true := by
  have hspace : wordsNeeded s.syncph ≤ space Config.txqDepth s.txq := by
    rw [wordsNeeded_eq, space, Config.txqDepth]
    omega
  simp [txFrameReady, hr, hq, hspace, hl]

/-- Settles O28: with room for the packet and no LINE step in it, it is pushed whole. -/
theorem txFramePushesThePacket : Obligations.TxFramePushesThePacket := by
  unfold Obligations.TxFramePushesThePacket
  intro s hp hr hq hroom hl hb
  have hready := txFrameReady_of_room hr hq hroom hl
  rw [exec_txFrame, issue_ready hp hready, txFrame_alone (s := s.opened) hb (room_of_txFrameReady hready)]
  rfl

/-- A TX_FRAME with no LINE step in it that is not held had room, and has pushed its packet whole. -/
theorem exec_txFrame_done {s s' : State} (h : exec .txFrame s = .next s') (hb : s.between = []) (hd : s'.result ≠ .held) :
    s.txq.length + wordsNeeded s.syncph ≤ 8 ∧ s' = { s with
      tx := s.tx.next, syncph := !s.syncph, txq := s.txq ++ encPacketOf s.par s.tx s.syncph
      echoq := pushWord s.par.echoqDepth s.echoq s.tx.raw, result := .none, events := [] } := by
  rw [exec_txFrame] at h
  obtain ⟨-, ⟨hready, rfl⟩ | ⟨-, rfl⟩⟩ := issue_next h
  · have hroom := room_of_txFrameReady hready
    exact ⟨hroom, txFrame_alone (s := s.opened) hb hroom⟩
  · exact absurd rfl hd

/-- Settles O29: the pushes are the first words of the packet and what LINE steps can do, and LINE steps that stop a running engine
have taken UNDERFLOW. -/
theorem txFrameSurvivesInterleaving : Obligations.TxFrameSurvivesInterleaving := by
  unfold Obligations.TxFrameSurvivesInterleaving
  intro s hp hr hq hroom hl packet
  have hready := txFrameReady_of_room hr hq hroom hl
  have hfit : s.txq.length + packet.length ≤ 8 := by
    rw [encPacketOf_length]
    exact room_of_txFrameReady hready
  obtain ⟨n, hn, f, hend⟩ := pushPacket_frame packet s.between (s.opened.pushEcho s.tx.raw) hfit
  refine ⟨s.opened.txFrame, n, (exec_txFrame s).trans (issue_ready hp hready), hn, ?stream, ?depth, rfl, rfl, f.echoq, f.rx, f.dv,
    f.txLock, f.rxLock, f.divLock, f.rxHeld, ?engine⟩
  case stream => exact f.stream.trans (List.append_assoc ..).symm
  case depth =>
    have hlen : (s.txq ++ packet.take n).length ≤ 8 := by
      rw [List.length_append, List.length_take]
      omega
    exact f.shorter.trans hlen
  case engine =>
    obtain ⟨hm, hstop, hout, hu⟩ | ⟨-, hm, hstop, hout, hu, he⟩ := f.engine
    · obtain ⟨-, hall⟩ | ⟨hne, -⟩ := hend
      · exact .inl ⟨hm, hstop.trans hq, hout, hu, hall⟩
      · exact absurd hm hne
    · obtain ⟨hm', -⟩ | ⟨-, hempty⟩ := hend
      · have hh : s.mode = .halted := hm'.symm.trans hm
        rw [hh] at hr
        cases hr
      · exact .inr ⟨hm, hstop, hout, hu, he, hempty⟩

/-! ### The line stream (R179) -/

/-- The sync phase toggles with every frame, so after `k` frames it has changed exactly when `k` is odd. -/
theorem phase_after_succ (phase : Bool) (k : Nat) :
    (phase ^^ decide ((k + 1) % 2 = 1)) = (!phase ^^ decide (k % 2 = 1)) := by
  have h : decide ((k + 1) % 2 = 1) = !decide (k % 2 = 1) := by
    rw [← decide_not]
    exact decide_eq_decide.mpr (by omega)
  rw [h, Bool.xor_not, Bool.not_xor]

/-- The sync bits that the line still owes in a phase: those of the 3-word packet to come (30_encoding.md R103). -/
def pendingSync (phase : Bool) : List Bool := if phase = true then syncBits else []

/-- A packet with the sync bits that it leaves pending is the frame with those that were pending before it. -/
theorem encPacketOf_lineBits (p : Params) (S : Timecode) (phase : Bool) :
    (encPacketOf p S phase).flatMap lineBits ++ pendingSync (!phase) =
      pendingSync phase ++ frameBits (encParity p S).1 (encParity p S).2 := by
  cases phase with
  | false => simp [encPacketOf, packet2, pendingSync, frameBits, dataBits]
  | true => simp [encPacketOf, packet3_lineBits, pendingSync, frameBits]

/-- Settles O15, by induction on the number of frames: each packet takes over the pending sync bits from the one before it. -/
theorem lineStreamIsWholeFrames : Obligations.LineStreamIsWholeFrames := by
  unfold Obligations.LineStreamIsWholeFrames
  intro p k
  induction k with
  | zero => simp [streamWords]
  | succ k ih =>
    intro S phase
    have frames : ((List.range (k + 1)).flatMap fun i =>
          frameBits (encParity p (Timecode.stepN i S)).1 (encParity p (Timecode.stepN i S)).2) =
        frameBits (encParity p S).1 (encParity p S).2 ++ (List.range k).flatMap fun i =>
          frameBits (encParity p (Timecode.stepN i S.next)).1 (encParity p (Timecode.stepN i S.next)).2 := by
      rw [List.range_succ_eq_map, List.flatMap_cons, List.flatMap_map]
      rfl
    rw [frames, phase_after_succ, streamWords, List.flatMap_append, List.append_assoc, ih S.next (!phase), ← List.append_assoc,
      ← List.append_assoc]
    exact congrArg (· ++ _) (encPacketOf_lineBits p S phase)

/-- Settles O30, by induction on the run: a TX_FRAME pushes the first packet of the stream that is left, a pop moves a word from
TXQ to the line. -/
theorem txFramesPushTheStream : Obligations.TxFramesPushTheStream := by
  unfold Obligations.TxFramesPushTheStream
  intro run
  induction run with
  | nil =>
    rintro s _ rfl
    simp [streamWords, Timecode.stepN]
  | cons frame run ih =>
    intro s s' h
    cases frame with
    | true =>
      obtain ⟨s1, he, hd, ht⟩ := h
      obtain ⟨hroom, rfl⟩ := exec_txFrame_done he rfl hd
      obtain ⟨hstream, htx, hphase, hlen, hmode, hpar⟩ := ih _ s' ht
      rw [List.count_cons_self, streamWords, phase_after_succ]
      refine ⟨hstream.trans (by simp only [List.append_assoc]), htx, hphase, ?_, hmode, hpar⟩
      rw [List.length_append, encPacketOf_length, max_eq_right hroom] at hlen
      exact hlen.trans (le_max_right _ _)
    | false =>
      obtain ⟨s1, w, he, hw, ht⟩ := h
      obtain ⟨q, hq, rfl⟩ := exec_lineTxPop_word he hw
      obtain ⟨hstream, htx, hphase, hlen, hmode, hpar⟩ := ih _ s' ht
      change s.txq = w :: q at hq
      rw [List.count_cons_of_ne (by decide), hq]
      refine ⟨hstream.trans (by simp only [List.append_assoc, List.singleton_append]), htx, hphase, ?_, hmode, hpar⟩
      exact hlen.trans (max_le_max_right 8 (Nat.le_succ _))

end Sys2Proof.Machine
end

section
/-! PROOF. The LTC decoder (42_ltc_decoder.md): the checks and the fields of two data words (R191 to R193), the three entry points
(R194 to R196) and the round trip through them (R199), the receive poll (R197) and the line decoder's push (R198). -/

namespace Sys2Proof.Machine

/-! ### The parity check (R193) -/

theorem parityOk_eq_decide (w0 w1 : Word) : parityOk w0 w1 = decide ((popcount w0 + popcount w1 + 13) % 2 = 0) :=
  beq_eq_decide ..

theorem flipped_getLsbD (w : Word) {k : Nat} (hk : k < 32) (i : Nat) :
    (w ^^^ 1#32 <<< k).getLsbD i = (w.getLsbD i ^^ decide (i = k)) := by
  rw [BitVec.getLsbD_xor, ← BitVec.twoPow_eq, BitVec.getLsbD_twoPow, decide_eq_true hk, Bool.true_and]
  simp only [eq_comm]

/-- A flipped bit adds a one or takes one away. -/
theorem popcount_flipped_mod_two (w : Word) {k : Nat} (hk : k < 32) : popcount (w ^^^ 1#32 <<< k) % 2 = (popcount w + 1) % 2 := by
  have h := popcount_update (w := w) hk fun i _ hne => by rw [flipped_getLsbD w hk, decide_eq_false hne, Bool.xor_false]
  rw [flipped_getLsbD w hk, decide_eq_true rfl, Bool.xor_true] at h
  have hone : ∀ b : Bool, b.toNat + (!b).toNat = 1 := by decide
  have := hone (w.getLsbD k)
  omega

/-- One flipped bit turns the parity over, in whichever word it is. -/
theorem parityOk_flipBit {k : Nat} (hk : k < 64) (W : Word × Word) :
    parityOk (flipBit k W).1 (flipBit k W).2 = !parityOk W.1 W.2 := by
  rw [parityOk_eq_decide, parityOk_eq_decide, ← decide_not, decide_eq_decide]
  by_cases h : k < 32
  · have := popcount_flipped_mod_two W.1 h
    simp only [flipBit, if_pos h]
    omega
  · have := popcount_flipped_mod_two W.2 (k := k - 32) (by omega)
    simp only [flipBit, if_neg h]
    omega

/-- Settles O36: the first flip turns the parity over and the second turns it back. -/
theorem parityCatchesOneFlip : Obligations.ParityCatchesOneFlip := by
  unfold Obligations.ParityCatchesOneFlip
  intro W j k hj hk hW
  have hflip : parityOk (flipBit j W).1 (flipBit j W).2 = false := by rw [parityOk_flipBit hj, hW, Bool.not_true]
  exact ⟨hflip, by rw [parityOk_flipBit hk, hflip, Bool.not_false]⟩

/-! ### The decoded time (R191, R192) -/

theorem decimal_le {w : Nat} (tens : BitVec w) (units : Nibble) : decimal tens units ≤ 10 * (2 ^ w - 1) + 15 := by
  have ht := tens.isLt
  have hu := units.isLt
  unfold decimal
  omega

/-- The ranges that follow from the widths of the digits' fields. -/
theorem decTime_le (w0 w1 : Word) :
    (decTime w0 w1).ff ≤ 45 ∧ (decTime w0 w1).ss ≤ 85 ∧ (decTime w0 w1).mm ≤ 85 ∧ (decTime w0 w1).hh ≤ 45 :=
  ⟨decimal_le _ _, decimal_le _ _, decimal_le _ _, decimal_le _ _⟩

theorem frameOk_iff (w0 w1 : Word) (fps : Rate) : frameOk w0 w1 fps = true ↔ (decTime w0 w1).ff < framesPerSecond fps :=
  decide_eq_true_iff

/-- Only the frame number can be too wide for its field, and the frame check bounds it. -/
theorem decTime_fits {w0 w1 : Word} {fps : Rate} (h : frameOk w0 w1 fps = true) : (decTime w0 w1).Fits := by
  obtain ⟨-, hss, hmm, hhh⟩ := decTime_le w0 w1
  have hff := (frameOk_iff w0 w1 fps).mp h
  have hn := (framesPerSecond_bounds fps).2
  exact ⟨by omega, by omega, by omega, by omega⟩

/-- Settles O35: the commit stores a time that fits. -/
theorem decodedTimeFits : Obligations.DecodedTimeFits := by
  unfold Obligations.DecodedTimeFits
  intro p w0 w1 R
  exact ⟨fun h => Timecode.time_setTime (decTime_fits h) R, decTime_le w0 w1⟩

/-! ### DEC_PACKET (R194) -/

theorem decPacket_of_frameOk {s : State} {w0 w1 : Word} (h : frameOk w0 w1 s.rx.fps = true) : s.decPacket w0 w1 = { s with
    result := .bool true, events := s.events ++ if parityOk w0 w1 then [] else [.parityErr]
    st := s.st.decoded true (!parityOk w0 w1), rx := decCommit s.par w0 w1 s.rx } := by
  rw [decPacket_eq, h]
  simp

theorem decPacket_of_not_frameOk {s : State} {w0 w1 : Word} (h : frameOk w0 w1 s.rx.fps = false) : s.decPacket w0 w1 = { s with
    result := .bool false, events := s.events ++ (if parityOk w0 w1 then [] else [.parityErr]) ++ [.decodeReject]
    st := s.st.decoded false (!parityOk w0 w1) } := by
  rw [decPacket_eq, h]
  simp

theorem exec_decPacket_of_canLock {s : State} {w0 w1 : Word} (hp : permits (.decPacket w0 w1) s = true)
    (hl : s.canLock .rx = true) : exec (.decPacket w0 w1) s = .next (s.opened.decPacket w0 w1) :=
  (exec_decPacket s w0 w1).trans (issue_ready hp hl)

/-- Settles O33: by the frame check, with the fields of the two words written out. -/
theorem decPacketCommitsOrRejects : Obligations.DecPacketCommitsOrRejects := by
  unfold Obligations.DecPacketCommitsOrRejects
  intro s w0 w1 hp hl ff ss mm hh even perr
  have heven : parityOk w0 w1 = even := parityOk_eq_decide w0 w1
  have hperr : s.opened.events ++ (if parityOk w0 w1 then [] else [.parityErr]) = perr := by rw [heven]; rfl
  rw [exec_decPacket_of_canLock hp hl]
  split
  case isTrue h =>
    rw [decPacket_of_frameOk (s := s.opened) ((frameOk_iff ..).mpr h), hperr, heven]
    rfl
  case isFalse h =>
    rw [decPacket_of_not_frameOk (s := s.opened) (Bool.eq_false_iff.mpr fun hf => h ((frameOk_iff ..).mp hf)), hperr, heven]
    rfl

/-! ### The sync fields (R195, R196) -/

/-- Behind a good sync field the two words are decoded as DEC_PACKET decodes them, with RX_SYNCERR clear. -/
theorem exec_decPacket_syncChecked {s : State} {w0 w1 : Word} (hp : permits (.decPacket w0 w1) s = true)
    (hl : s.canLock .rx = true) : exec (.decPacket w0 w1) { s with st := { s.st with rxSyncErr := false } } =
      .next ((s.opened.setSt (s.st.syncChecked true)).decPacket w0 w1) :=
  exec_decPacket_of_canLock (s := { s with st := { s.st with rxSyncErr := false } }) hp hl

theorem exec_decPacket3_of_sync {s : State} {x0 x1 x2 : Word} (hp : permits (.decPacket3 x0 x1 x2) s = true)
    (hl : s.canLock .rx = true) (h : lowHalf x0 = syncPattern ∧ highHalf x2 = syncPattern) :
    exec (.decPacket3 x0 x1 x2) s = .next ((s.opened.setSt (s.st.syncChecked true)).decPacket
      (wordOfHalves (highHalf x0) (lowHalf x1)) (wordOfHalves (highHalf x1) (lowHalf x2))) := by
  rw [exec_decPacket3, issue_ready hp hl, State.decPacket3, if_pos h]
  rfl

theorem exec_decFrame80_of_sync {s : State} {w0 w1 : Word} (hp : permits (.decFrame80 w0 w1 syncPattern) s = true)
    (hl : s.canLock .rx = true) : exec (.decFrame80 w0 w1 syncPattern) s =
      .next ((s.opened.setSt (s.st.syncChecked true)).decPacket w0 w1) := by
  rw [exec_decFrame80, issue_ready hp hl, State.decFrame80, if_pos rfl]
  rfl

/-- Settles O34: by the sync fields of each form. -/
theorem syncFieldsAreChecked : Obligations.SyncFieldsAreChecked := by
  unfold Obligations.SyncFieldsAreChecked
  refine ⟨fun s x0 x1 x2 hp hl => ?packet3, fun s w0 w1 s16 hp hl => ?frame80⟩
  case packet3 =>
    split
    case isTrue h =>
      have he := exec_decPacket3_of_sync (x1 := x1) hp hl h
      refine ⟨?_, _, he⟩
      rw [he, ← exec_decPacket_syncChecked hp hl, wordOfHalves_eq_or, wordOfHalves_eq_or]
      rfl
    case isFalse h =>
      change ¬(lowHalf x0 = syncPattern ∧ highHalf x2 = syncPattern) at h
      rw [exec_decPacket3, issue_ready hp hl, State.decPacket3, if_neg h]
      rfl
  case frame80 =>
    split
    case isTrue h =>
      subst h
      have he := exec_decFrame80_of_sync hp hl
      exact ⟨he.trans (exec_decPacket_syncChecked hp hl).symm, _, he⟩
    case isFalse h =>
      change ¬s16 = syncPattern at h
      rw [exec_decFrame80, issue_ready hp hl, State.decFrame80, if_neg h]
      rfl

/-! ### The round trip (R199) -/

theorem decimal_digits {w v : Nat} (h : v / 10 < 2 ^ w) : decimal (tensDigit w v) (unitsDigit v) = v := by
  rw [decimal, tensDigit_toNat h, unitsDigit_toNat]
  omega

/-- A legal time comes back from the digits that the encoder made of it. -/
theorem decTime_encParity (p : Params) {S : Timecode} {n : Nat} (hn : n ≤ 30) (h : S.time.Legal n) :
    decTime (encParity p S).1 (encParity p S).2 = S.time := by
  obtain ⟨hhh, hmm, hss, hff⟩ := h
  simp only [decTime, ofWord_encParity0, ofWord_encParity1, encFields0, encFields1]
  rw [decimal_digits (by omega), decimal_digits (by omega), decimal_digits (by omega), decimal_digits (by omega)]

/-- What the commit of an encoded legal file stores: everything as it was sent but the rate and, by the receiver's family, the
two flags that share their places with the parity bit (30_encoding.md R98). -/
theorem decCommit_encParity (p : Params) {S : Timecode} {n : Nat} (hn : n ≤ 30) (h : S.time.Legal n) (R : Timecode) :
    decCommit p (encParity p S).1 (encParity p S).2 R = { S with
      fps := R.fps
      bgf0 := if fam25 p R.fps then (encParity p S).1.getLsbD 27 else (encFields1 p S).f43
      bgf2 := if fam25 p R.fps then (encFields1 p S).f43 else (encParity p S).2.getLsbD 27 } := by
  have htime : R.setTime S.time = { R with hh := S.hh, mm := S.mm, ss := S.ss, ff := S.ff } := by
    simp [Timecode.setTime, Timecode.time]
  rw [decCommit, decTime_encParity p hn h, htime, ofWord_encParity0, ofWord_encParity1]
  rfl

theorem lowHalf_shiftLeft (w : Word) : (lowHalf w).setWidth 32 <<< 16 = w <<< 16 := by
  apply BitVec.eq_of_getLsbD_eq
  intro i hi
  simp only [lowHalf, BitVec.getLsbD_shiftLeft, BitVec.getLsbD_setWidth, BitVec.getLsbD_extractLsb']
  by_cases h : i < 16
  · simp [h]
  · simp [h, show i - 16 < 16 by omega, show i - 16 < 32 by omega]

theorem highHalf_setWidth (w : Word) : (highHalf w).setWidth 32 = w >>> 16 := by
  apply BitVec.eq_of_getLsbD_eq
  intro i hi
  simp only [highHalf, BitVec.getLsbD_ushiftRight, BitVec.getLsbD_setWidth, BitVec.getLsbD_extractLsb']
  by_cases h : i < 16
  · simp [h, hi]
  · rw [BitVec.getLsbD_of_ge w (16 + i) (by omega)]
    simp [h]

/-- The three words of the 3-word packet, as shifts join them. -/
theorem packet3_eq_shifts (w0 w1 : Word) : packet3 w0 w1 =
    [0x0000BFFC#32 ||| w0 <<< 16, (w0 >>> 16) ||| (w1 <<< 16), (w1 >>> 16) ||| 0xBFFC0000#32] := by
  rw [packet3, wordOfHalves_eq_or, wordOfHalves_eq_or, wordOfHalves_eq_or, lowHalf_shiftLeft, lowHalf_shiftLeft,
    highHalf_setWidth, highHalf_setWidth]
  rfl

/-- The words of a packet, of a 3-word packet and of a frame with its sync bits all come to DEC_PACKET of the two data words. -/
theorem exec_packetForm {s : State} (w0 w1 : Word) (hrt : s.agent = .rt) (hl : s.canLock .rx = true) :
    ∀ i ∈ [Instr.decPacket w0 w1,
        .decPacket3 (0x0000BFFC#32 ||| w0 <<< 16) ((w0 >>> 16) ||| (w1 <<< 16)) ((w1 >>> 16) ||| 0xBFFC0000#32),
        .decFrame80 w0 w1 0xBFFC#16],
      ∃ st, exec i s = .next ((s.opened.setSt st).decPacket w0 w1) := by
  have hp : permits (.decPacket w0 w1) s = true := by simp [permits, hrt, agentMay, opClass, rtMay]
  have hx := packet3_eq_shifts w0 w1
  simp only [packet3, List.cons.injEq, and_true] at hx
  obtain ⟨h0, h1, h2⟩ := hx
  simp only [List.mem_cons, List.not_mem_nil, or_false, forall_eq_or_imp, forall_eq, ← h0, ← h1, ← h2]
  refine ⟨⟨s.st, exec_decPacket_of_canLock hp hl⟩, ⟨s.st.syncChecked true, ?packet3⟩,
    ⟨s.st.syncChecked true, exec_decFrame80_of_sync hp hl⟩⟩
  case packet3 =>
    rw [exec_decPacket3_of_sync hp hl ⟨lowHalf_wordOfHalves .., highHalf_wordOfHalves ..⟩]
    simp only [lowHalf_wordOfHalves, highHalf_wordOfHalves, wordOfHalves_split]

/-- Settles O16: each form comes to DEC_PACKET of the encoded words, which commits the file that was sent. -/
theorem codecRoundTrip : Obligations.CodecRoundTrip := by
  unfold Obligations.CodecRoundTrip
  intro s htx hff hrt hl W0 W1 i hi
  obtain ⟨⟨hlegal, -⟩, -⟩ := htx
  have hn := (framesPerSecond_bounds s.tx.fps).2
  obtain ⟨st, he⟩ := exec_packetForm W0 W1 hrt hl i hi
  have hframe : frameOk W0 W1 s.rx.fps = true := by
    rw [frameOk_iff, decTime_encParity s.par hn hlegal]
    exact hff
  have hparity : parityOk W0 W1 = true := beq_iff_eq.mpr (encParity_framePop_even s.par s.tx)
  have hcommit := decCommit_encParity s.par hn hlegal s.rx
  rw [decPacket_of_frameOk (s := s.opened.setSt st) hframe, hparity] at he
  refine ⟨_, he, rfl, rfl, rfl, fun hfam => hcommit.trans ?same, fun hr ht => hcommit.trans ?receiver25,
    fun hr ht => hcommit.trans ?sender25⟩
  case same =>
    cases ht : fam25 s.par s.tx.fps with
    | true =>
      rw [hfam.trans ht, if_pos rfl, if_pos rfl, encParity_bit27_of_fam25 ht, encFields1, ht]
      rfl
    | false =>
      rw [hfam.trans ht, encParity_bit59_of_not_fam25 ht, encFields1, ht]
      rfl
  case receiver25 =>
    rw [hr, encFields1, ht]
    rfl
  case sender25 =>
    rw [hr, encFields1, ht]
    rfl

/-! ### RX_POLL (R197) -/

/-- What a decode leaves in RX and its two flags depends on RX, the parameters and the words alone. -/
theorem decPacket_congr {s u : State} (hrx : u.rx = s.rx) (hpar : u.par = s.par) (w0 w1 : Word) :
    (u.decPacket w0 w1).rx = (s.decPacket w0 w1).rx ∧ (u.decPacket w0 w1).st.rxOk = (s.decPacket w0 w1).st.rxOk ∧
      (u.decPacket w0 w1).st.rxPerr = (s.decPacket w0 w1).st.rxPerr := by
  rw [decPacket_eq, decPacket_eq, hrx, hpar]
  exact ⟨rfl, rfl, rfl⟩

theorem decPacket_rxq (s : State) (w0 w1 : Word) : (s.decPacket w0 w1).rxq = s.rxq := by rw [decPacket_eq]

theorem decPacket_rxHeld (s : State) (w0 w1 : Word) : (s.decPacket w0 w1).rxHeld = s.rxHeld := by rw [decPacket_eq]

theorem rxPoll_of_waiting {s : State} {w0 w1 : Word} (h : s.rxHeld = some (w0, w1)) :
    s.rxPoll = (({ s with rxHeld := none } : State).decPacket w0 w1).answer .none := by
  simp only [State.rxPoll, h]

theorem rxPoll_of_short {s : State} (hh : s.rxHeld = none) (hq : s.rxq.length < 2) : s.rxPoll = s := by
  obtain ⟨w0, w1, h, -⟩ | ⟨-, -, e⟩ | ⟨-, w0, w1, q, s1, pushed, h, -⟩ := rxPoll_cases s
  · exact nomatch hh.symm.trans h
  · exact e
  · rw [h] at hq
    simp at hq

/-- The two pops, whatever LINE_RX pushes between them, leave all but RXQ, its overflow flag, what is delivered and what is
raised; then the two words are decoded, or wait for RX.lock. -/
theorem rxPoll_of_words {s : State} {w0 w1 : Word} {q : List Word} (hh : s.rxHeld = none) (hq : s.rxq = w0 :: w1 :: q) :
    ∃ u pushed r es ovf,
      u = { s with rxq := q ++ pushed, result := r, events := es, st := { s.st with rxOvf := ovf } } ∧
      (s.between = [] → u = { s with rxq := q }) ∧
      (s.canLock .rx = true → s.rxPoll = (u.decPacket w0 w1).answer .none) ∧
      (s.canLock .rx = false → s.rxPoll = ({ u with rxHeld := some (w0, w1) } : State).answer .held) := by
  obtain ⟨v0, v1, h, -⟩ | ⟨-, h, -⟩ |
    ⟨-, v0, v1, q', s1, pushed, h, f, hm, hr, ho, ht, hlw, hu, hb, htail, c⟩ := rxPoll_cases s
  · exact nomatch hh.symm.trans h
  · rw [hq] at h
    simp at h
  · rw [hq] at h
    cases h
    have hkept := f.eq_of_engine_kept hm hr ho ht hlw hu
    refine ⟨{ s1 with rxq := q ++ pushed }, pushed, s1.result, s1.events, s1.st.rxOvf,
      congrArg (fun v : State => { v with rxq := q ++ pushed }) hkept, fun hnone => ?alone, fun hl => ?free, fun hl => ?taken⟩
    case alone =>
      rw [hb hnone] at htail ⊢
      rw [← htail]
      rfl
    case free =>
      obtain ⟨-, e⟩ | ⟨hl', -⟩ := c
      · exact e
      · exact nomatch hl.symm.trans hl'
    case taken =>
      obtain ⟨hl', -⟩ | ⟨-, e⟩ := c
      · exact nomatch hl.symm.trans hl'
      · exact e

/-- Settles O37: by what stands in RXQ, or waits for RX.lock. -/
theorem rxPollDecodesOnePacket : Obligations.RxPollDecodesOnePacket := by
  unfold Obligations.RxPollDecodesOnePacket
  intro s hp
  refine ⟨fun hh hrun hstop => ?fresh, fun w0 w1 hh hl => ?waiting⟩
  case fresh =>
    have he : exec .rxPoll s = .next s.opened.rxPoll := issue_ready hp (by simp [rxPollReady, hh, hrun, hstop])
    refine ⟨fun hq => ?short, fun w0 w1 q hq => ?words⟩
    case short =>
      rw [he, rxPoll_of_short (s := s.opened) hh hq]
      rfl
    case words =>
      obtain ⟨u, pushed, r, es, ovf, hu, hb, hfree, hother⟩ := rxPoll_of_words (s := s.opened) hh hq
      rw [State.opened_canLock] at hfree hother
      refine ⟨_, pushed, he, fun _ => ?_⟩
      cases hl : s.canLock .rx with
      | true =>
        obtain ⟨hrx, hok, hperr⟩ := decPacket_congr (s := s.opened) (u := u) (by rw [hu]) (by rw [hu]) w0 w1
        have hidle : u.rxHeld = none := by rw [hu]; exact hh
        rw [hfree hl]
        refine ⟨(decPacket_rxq u w0 w1).trans (by rw [hu]), fun _ => ⟨rfl, (decPacket_rxHeld u w0 w1).trans hidle, _,
          exec_decPacket_of_canLock hp hl, hrx, hok, hperr, fun hnone => ?alone⟩, nofun⟩
        case alone =>
          rw [hb hnone, decPacket_eq, decPacket_eq]
          rfl
      | false =>
        rw [hother hl, hu]
        exact ⟨rfl, nofun, fun _ => ⟨rfl, rfl, rfl, rfl, rfl⟩⟩
  case waiting =>
    have hready : rxPollReady s = true := by simp only [rxPollReady, hh, hl]
    refine ⟨_, exec_decPacket_of_canLock (s := { s with rxHeld := none }) hp hl, ?_⟩
    rw [exec_rxPoll, issue_ready hp hready, rxPoll_of_waiting (s := s.opened) hh]
    rfl

/-! ### LINE_RX_PUSH (R198) -/

theorem lineRxPush_of_room {s : State} {w : Word} (h : s.rxq.length < s.par.rxqDepth) :
    s.lineRxPush w = { s with rxq := s.rxq ++ [w] } := if_pos h

theorem lineRxPush_of_full {s : State} {w : Word} (h : ¬s.rxq.length < s.par.rxqDepth) :
    s.lineRxPush w = (s.setSt s.st.overflowed).raise .rxOverflow := if_neg h

/-- Settles O38: by the engine, and by the room in RXQ. -/
theorem lineRxPushOrOverflow : Obligations.LineRxPushOrOverflow := by
  unfold Obligations.LineRxPushOrOverflow
  intro s w hp
  rw [exec_lineRxPush]
  split
  case isTrue hstopped => exact issue_held hp hstopped
  case isFalse hrun =>
    rw [issue_ready hp (show lineEnabled s = true from Bool.eq_true_of_not_eq_false hrun)]
    split
    case isTrue hroom =>
      rw [lineRxPush_of_room (s := s.opened) hroom]
      rfl
    case isFalse hfull =>
      rw [lineRxPush_of_full (s := s.opened) hfull]
      rfl

end Sys2Proof.Machine
end

section
/-! PROOF. The clock adjuster (43_clock_adjust.md): calibration values and the durations of a cycle (R213, R217). -/

namespace Sys2Proof.Machine

/-! ### Calibration values (R213) -/

theorem calSgn_cases (c : Rat) : calSgn c = -1 ∧ c < 0 ∨ calSgn c = 0 ∧ c = 0 ∨ calSgn c = 1 ∧ 0 < c := by
  rcases lt_trichotomy c 0 with h | h | h
  · exact .inl ⟨Int.sign_eq_neg_one_of_neg (Rat.num_neg.mpr h), h⟩
  · exact .inr (.inl ⟨by rw [calSgn, h]; rfl, h⟩)
  · exact .inr (.inr ⟨Int.sign_eq_one_of_pos (Rat.num_pos.mpr h), h⟩)

theorem calSgn_mul_abs (c : Rat) : (calSgn c : Rat) * |c| = c := by
  obtain ⟨hs, hc⟩ | ⟨hs, hc⟩ | ⟨hs, hc⟩ := calSgn_cases c
  · rw [hs, abs_of_neg hc]; simp
  · rw [hs, hc]; simp
  · rw [hs, abs_of_pos hc]; simp

theorem calFrac_eq_div (c : Rat) : calFrac c = (calFracNum c : Rat) / c.den := by
  rw [calFrac, Rat.mkRat_eq_div, Int.cast_natCast]

/-- The fraction by the magnitude is the fractional part of the magnitude. -/
theorem calFrac_eq_fract (c : Rat) : calFrac c = Int.fract |c| := by
  rw [calFrac_eq_div, Rat.abs_def, Rat.divInt_eq_div, Int.cast_natCast, Int.cast_natCast,
    Int.fract_div_natCast_eq_div_natCast_mod, calFracNum]

theorem calFrac_nonneg (c : Rat) : 0 ≤ calFrac c := calFrac_eq_fract c ▸ Int.fract_nonneg |c|

theorem calFrac_lt_one (c : Rat) : calFrac c < 1 := calFrac_eq_fract c ▸ Int.fract_lt_one |c|

theorem calInt_add_calFrac (c : Rat) : (calInt c : Rat) + calFrac c = |c| := by
  have hk : (calInt c : Rat) = (⌊|c|⌋ : Rat) := by rw [← calInt_eq_floor, Int.cast_natCast]
  rw [hk, calFrac_eq_fract, Int.floor_add_fract]

theorem calSgn_mul_calInt_add_calFrac (c : Rat) : (calSgn c : Rat) * (calInt c + calFrac c) = c := by
  rw [calInt_add_calFrac, calSgn_mul_abs]

/-! ### The durations of a cycle (R217) -/

theorem onDuration_floor (q : Nat) (c : Rat) : (onDuration .floor q c : Int) = ⌊q * calFrac c⌋ := by
  rw [calFrac_eq_div, ← mul_div_assoc, ← Nat.cast_mul, Rat.floor_natCast_div_natCast]
  rfl

/-- The duration is `Q * f` rounded down, or, where that is no integer, up. -/
theorem onDuration_cases (r : OnRounding) (q : Nat) (c : Rat) :
    onDuration r q c = q * calFracNum c / c.den ∨
      q * calFracNum c % c.den ≠ 0 ∧ onDuration r q c = q * calFracNum c / c.den + 1 := by
  cases r with
  | floor => exact .inl rfl
  | platform =>
    unfold onDuration
    dsimp only
    split
    case isTrue hup => exact .inr ⟨hup.1, rfl⟩
    case isFalse => exact .inl rfl

theorem mul_calFrac_eq (q : Nat) (c : Rat) :
    q * calFrac c = ((q * calFracNum c / c.den : Nat) : Rat) + ((q * calFracNum c % c.den : Nat) : Rat) / c.den := by
  have hden : (c.den : Rat) ≠ 0 := Nat.cast_ne_zero.mpr c.den_nz
  have hsplit : ((c.den * (q * calFracNum c / c.den) + q * calFracNum c % c.den : Nat) : Rat) = (q * calFracNum c : Nat) := by
    rw [Nat.div_add_mod]
  rw [calFrac_eq_div]
  push_cast at hsplit ⊢
  field_simp
  linarith

theorem abs_onDuration_sub_lt (r : OnRounding) (q : Nat) (c : Rat) : |(onDuration r q c : Rat) - q * calFrac c| < 1 := by
  have hden : (0 : Rat) < c.den := Nat.cast_pos.mpr c.den_pos
  have hlt : ((q * calFracNum c % c.den : Nat) : Rat) / c.den < 1 :=
    (div_lt_one hden).mpr (Nat.cast_lt.mpr (Nat.mod_lt _ c.den_pos))
  rw [mul_calFrac_eq]
  obtain h | ⟨hrest, h⟩ := onDuration_cases r q c
  · have hnonneg : 0 ≤ ((q * calFracNum c % c.den : Nat) : Rat) / c.den := by positivity
    rw [h, abs_sub_lt_iff]
    constructor <;> linarith
  · have hpos : 0 < ((q * calFracNum c % c.den : Nat) : Rat) / c.den :=
      div_pos (Nat.cast_pos.mpr (Nat.pos_of_ne_zero hrest)) hden
    rw [h, abs_sub_lt_iff, Nat.cast_add_one]
    constructor <;> linarith

theorem mul_calFrac_le (q : Nat) (c : Rat) : q * calFrac c ≤ q :=
  mul_le_of_le_one_right (Nat.cast_nonneg q) (calFrac_lt_one c).le

/-- Bounding the duration by the period brings it no further from `Q * f`, which the period bounds too. -/
theorem abs_onTime_sub_lt (r : OnRounding) (q : Nat) (c : Rat) : |(onTime r q c : Rat) - q * calFrac c| < 1 := by
  have hnear := abs_onDuration_sub_lt r q c
  rcases le_total (onDuration r q c) q with h | h
  · rwa [onTime, min_eq_left h]
  · have hle := mul_calFrac_le q c
    have hq : (q : Rat) ≤ onDuration r q c := Nat.cast_le.mpr h
    rw [abs_sub_lt_iff] at hnear ⊢
    rw [onTime, min_eq_right h]
    constructor <;> linarith [hnear.1]

theorem onTime_le (r : OnRounding) (q : Nat) (c : Rat) : onTime r q c ≤ q := min_le_right _ _

theorem onTime_add_offTime (r : OnRounding) (q : Nat) (c : Rat) : onTime r q c + offTime r q c = q :=
  Nat.add_sub_cancel' (onTime_le r q c)

theorem offTime_floor_pos {q : Nat} (hq : 0 < q) (c : Rat) : 1 ≤ offTime .floor q c := by
  have hlt : onDuration .floor q c < q := by
    rw [← Nat.cast_lt (α := Int), onDuration_floor, Int.floor_lt]
    exact mul_lt_of_lt_one_right (Nat.cast_pos.mpr hq) (calFrac_lt_one c)
  exact Nat.sub_pos_of_lt ((min_le_left _ _).trans_lt hlt)

/-- Settles O39: by the fractional part of the magnitude, and the bounds of the rounding of `Q * f`. -/
theorem calibrationAndDurationsSplit : Obligations.CalibrationAndDurationsSplit := by
  unfold Obligations.CalibrationAndDurationsSplit
  exact ⟨fun c => ⟨(calSgn_mul_calInt_add_calFrac c).symm, calFrac_nonneg c, calFrac_lt_one c, calSgn_cases c⟩,
    fun r q c => ⟨onTime_add_offTime r q c, onTime_le r q c, abs_onDuration_sub_lt r q c, onDuration_floor q c,
      fun hq => offTime_floor_pos hq c⟩⟩

end Sys2Proof.Machine
end

section
/-! PROOF. The clock adjuster (43_clock_adjust.md): what each operation leaves in the divider (R215 to R224, R232), and the mean of
DIV over a cycle (R225). -/

namespace Sys2Proof.Machine

/-- The answer of an operation that may be issued and is not held, from what its body does. -/
theorem issue_of_body_eq {i : Instr} {ready : Bool} {body : State → State} {s d : State} (hp : permits i s = true)
    (hr : ready = true) (hb : body s.opened = d) : issue i ready body s = .next d :=
  (issue_ready hp hr).trans (congrArg Host.Outcome.next hb)

/-! ### BEGIN_CYCLE (R218) -/

/-- Everything BEGIN_CYCLE leaves: with an on time of 0 the divider at its coarse part, Idle, with no timer. -/
theorem beginCycle_eq (p : Params) (now : Nat) (d : Divider) : beginCycle p now d = { d with
    calAct := d.calTgt, periodAct := d.period,
    fine := if onTime p.onRounding d.period d.calTgt = 0 then 0 else fineOf p.calDir d.calTgt,
    div := if onTime p.onRounding d.period d.calTgt = 0 then d.div0 + d.coarse
      else d.div0 + d.coarse + fineOf p.calDir d.calTgt,
    dstate := if onTime p.onRounding d.period d.calTgt = 0 then .idle else .on,
    tMain := if onTime p.onRounding d.period d.calTgt = 0 then none
      else some (now + onTime p.onRounding d.period d.calTgt),
    tSafe := if onTime p.onRounding d.period d.calTgt = 0 then none
      else some (now + onTime p.onRounding d.period d.calTgt + p.safetyMargin) } := by
  unfold beginCycle
  dsimp only
  split <;> rfl

/-- A new cycle takes nothing from the phase, the divider, the fine part and the timers that it finds. -/
theorem beginCycle_of_phase (p : Params) (now : Nat) (d : Divider) (fine div : Int) (phase : DitherState)
    (main safe : Option Nat) :
    beginCycle p now { d with fine := fine, div := div, dstate := phase, tMain := main, tSafe := safe } =
      beginCycle p now d := by
  rw [beginCycle_eq, beginCycle_eq p now d]

theorem adjustDivider_of_idle {d : Divider} (h : d.dstate = .idle) (p : Params) (now : Nat) (c : Rat) (q : Nat) :
    adjustDivider p now c q d =
      beginCycle p now { d with calTgt := c, period := q, coarse := coarseOf p.calDir c } :=
  (if_pos h).trans (beginCycle_of_phase p now { d with calTgt := c, period := q, coarse := coarseOf p.calDir c } ..)

theorem adjustDivider_of_cycle {d : Divider} (h : d.dstate ≠ .idle) (p : Params) (now : Nat) (c : Rat) (q : Nat) :
    adjustDivider p now c q d = { d with
      calTgt := c, period := q, coarse := coarseOf p.calDir c, div := d.div0 + coarseOf p.calDir c + d.fine } := if_neg h

/-! ### MICRO_ADJUST and LOAD_CAL with operands in range (R215, R216, R232) -/

section InRange

variable {s : State} {c : Rat} {P : Int} (h1 : -s.par.calMax ≤ c) (h2 : c ≤ s.par.calMax) (h3 : 0 < P)
include h1 h2 h3

theorem State.microAdjust_of_running (hr : running s.mode = true) :
    s.microAdjust (.finite c) P = s.setDv (adjustDivider s.par s.now c P.toNat s.dv) := by
  simp [State.microAdjust, acceptCal_of_range h1 h2 h3, hr]

theorem State.microAdjust_of_stopped (hr : running s.mode = false) :
    s.microAdjust (.finite c) P = s.setDv (cancelDivider s.dv) := by
  simp [State.microAdjust, acceptCal_of_range h1 h2 h3, hr]

theorem State.loadCal_of_running (hr : running s.mode = true) : s.loadCal (.finite c) P = s := by
  simp [State.loadCal, acceptCal_of_range h1 h2 h3, hr]

theorem State.loadCal_of_stopped (hr : running s.mode = false) :
    s.loadCal (.finite c) P = s.setDv { s.dv with calTgt := c, period := P.toNat } := by
  simp [State.loadCal, acceptCal_of_range h1 h2 h3, hr]

end InRange

/-- Settles O40: by the phase that MICRO_ADJUST finds. -/
theorem microAdjustSetsTheCycle : Obligations.MicroAdjustSetsTheCycle := by
  unfold Obligations.MicroAdjustSetsTheCycle
  intro s c P hp hr hstop hl h1 h2 h3
  have he : exec (.microAdjust (.finite c) P) s =
      .next (s.opened.setDv (adjustDivider s.par s.now c (P.getD s.dv.period).toNat s.dv)) :=
    (exec_microAdjust s _ P).trans (issue_of_body_eq hp (by simp [microAdjustReady, hl, hstop])
      (State.microAdjust_of_running (s := s.opened) h1 h2 h3 hr))
  refine ⟨fun hidle => ?idle, fun hcycle => ?cycle⟩
  case idle =>
    rw [he, adjustDivider_of_idle hidle, beginCycle_eq]
    rfl
  case cycle =>
    rw [he, adjustDivider_of_cycle hcycle]
    rfl

/-- Settles O41: both are the cancel of the divider. -/
theorem cancelDitherDropsTimers : Obligations.CancelDitherDropsTimers := by
  unfold Obligations.CancelDitherDropsTimers
  intro s hl
  refine ⟨fun hp => ?cancel, fun c P hp hr h1 h2 h3 => ?microAdjust⟩
  case cancel => exact (exec_cancelDither s).trans (issue_ready hp hl)
  case microAdjust =>
    exact (exec_microAdjust s _ P).trans (issue_of_body_eq hp (by simp [microAdjustReady, hl, hr])
      (State.microAdjust_of_stopped (s := s.opened) h1 h2 h3 hr))

/-- Settles O45: by the engine. -/
theorem loadCalStoresTarget : Obligations.LoadCalStoresTarget := by
  unfold Obligations.LoadCalStoresTarget
  intro s c P hp h1 h2 h3
  refine ⟨fun hr hl => ?stopped, fun hr => ?running⟩
  case stopped =>
    exact (exec_loadCal s _ P).trans (issue_of_body_eq hp (by simp [loadCalReady, hl])
      (State.loadCal_of_stopped (s := s.opened) h1 h2 h3 hr))
  case running =>
    exact (exec_loadCal s _ P).trans (issue_of_body_eq hp (by simp [loadCalReady, hr])
      (State.loadCal_of_running (s := s.opened) h1 h2 h3 hr))

/-! ### MAIN_FIRE (R219, R221) -/

theorem mainFireDivider_of_idle {d : Divider} (h : d.dstate = .idle) (p : Params) (now : Nat) :
    mainFireDivider p now d = d := by
  simp only [mainFireDivider, h]

theorem mainFireDivider_of_on {d : Divider} (h : d.dstate = .on) (p : Params) (now : Nat) :
    mainFireDivider p now d =
      if offTime p.onRounding d.periodAct d.calAct = 0 then beginCycle p now (restoreDivider d)
      else { restoreDivider d with
        dstate := .off, tMain := some (now + offTime p.onRounding d.periodAct d.calAct),
        tSafe := some (now + offTime p.onRounding d.periodAct d.calAct + p.safetyMargin) } := by
  simp only [mainFireDivider, h]

theorem mainFireDivider_of_off {d : Divider} (h : d.dstate = .off) (p : Params) (now : Nat) :
    mainFireDivider p now d = beginCycle p now d := by
  simp only [mainFireDivider, h]
  exact beginCycle_of_phase p now d d.fine d.div .off none none

theorem State.mainFire_of_stale {s : State} (h : s.dv.tMain = none) : s.mainFire = s := by
  simp only [State.mainFire, h]

theorem State.mainFire_of_armed {s : State} {t : Nat} (h : s.dv.tMain = some t) :
    s.mainFire = s.setDv (mainFireDivider s.par s.now s.dv) := by
  simp only [State.mainFire, h]

/-- Settles O43: by the handle and the phase. -/
theorem mainFireMovesThePhase : Obligations.MainFireMovesThePhase := by
  unfold Obligations.MainFireMovesThePhase
  intro s hp hl
  have hdue {t : Nat} (ht : s.dv.tMain = some t) (hle : t ≤ s.now) :
      exec .mainFire s = .next (s.opened.setDv (mainFireDivider s.par s.now s.dv)) :=
    (exec_mainFire s).trans (issue_of_body_eq hp (by simp [timerDue, ht, hle, hl])
      (State.mainFire_of_armed (s := s.opened) ht))
  refine ⟨fun t hon ht hle => ?on, fun t hoff ht hle => ?off, fun hnone => ?stale⟩
  case on =>
    rw [hdue ht hle, mainFireDivider_of_on hon]
    rfl
  case off =>
    rw [hdue ht hle, mainFireDivider_of_off hoff, beginCycle_eq]
    rfl
  case stale =>
    exact (exec_mainFire s).trans (issue_of_body_eq hp (by simp [timerDue, hnone, hl])
      (State.mainFire_of_stale (s := s.opened) hnone))

/-! ### SAFE_FIRE (R222) -/

theorem State.safeFire_of_stale {s : State} (h : s.dv.tSafe = none) : s.safeFire = s := by
  simp only [State.safeFire, h]

theorem State.safeFire_of_armed {s : State} {t : Nat} (h : s.dv.tSafe = some t) : s.safeFire =
    (((s.setSt s.st.safetyCounted).raise .safetyTimeout).setDv { restoreDivider s.dv with dstate := .idle }).microAdjust
      (.finite s.dv.calTgt) s.dv.period := by
  simp only [State.safeFire, h]

section Reapplied

variable {s : State} {t : Nat} (hcal : CalInRange s) (ht : s.dv.tSafe = some t)
include hcal ht

/-- The reapplied request finds the divider Idle, so a running engine begins a fresh cycle. -/
theorem State.safeFire_of_running (hr : running s.mode = true) :
    s.safeFire = ((s.setSt s.st.safetyCounted).raise .safetyTimeout).setDv
      (beginCycle s.par s.now { s.dv with coarse := coarseOf s.par.calDir s.dv.calTgt }) := by
  obtain ⟨⟨h1, h2⟩, -, hperiod, -⟩ := hcal
  rw [State.safeFire_of_armed ht, State.microAdjust_of_running, adjustDivider_of_idle rfl]
  · exact congrArg ((s.setSt s.st.safetyCounted).raise .safetyTimeout).setDv
      (beginCycle_of_phase s.par s.now { s.dv with coarse := coarseOf s.par.calDir s.dv.calTgt } ..)
  · exact h1
  · exact h2
  · exact Int.natCast_pos.mpr hperiod
  · exact hr

theorem State.safeFire_of_stopped (hr : running s.mode = false) :
    s.safeFire = ((s.setSt s.st.safetyCounted).raise .safetyTimeout).setDv { restoreDivider s.dv with dstate := .idle } := by
  obtain ⟨⟨h1, h2⟩, -, hperiod, -⟩ := hcal
  rw [State.safeFire_of_armed ht, State.microAdjust_of_stopped]
  exacts [rfl, h1, h2, Int.natCast_pos.mpr hperiod, hr]

end Reapplied

/-- Settles O44: by the handle and the engine. -/
theorem safeFireReapplies : Obligations.SafeFireReapplies := by
  unfold Obligations.SafeFireReapplies
  intro s hp hl hcal
  refine ⟨fun hnone => ?stale, fun t ht hle => ?due⟩
  case stale =>
    exact (exec_safeFire s).trans (issue_of_body_eq hp (by simp [timerDue, hnone, hl])
      (State.safeFire_of_stale (s := s.opened) hnone))
  case due =>
    rw [exec_safeFire, issue_ready hp (by simp [timerDue, ht, hle, hl])]
    cases hr : running s.mode with
    | true =>
      rw [State.safeFire_of_running (s := s.opened) hcal ht hr]
      rfl
    | false =>
      rw [State.safeFire_of_stopped (s := s.opened) hcal ht hr]
      rfl

/-! ### The mean of DIV (R225) -/

section Mean

variable (p : Params) (now : Nat) (d : Divider)

/-- What the on phase adds to the sum of DIV over a cycle; with nothing to dither there is none. -/
theorem onTime_mul_beginCycle_div :
    (onTime p.onRounding d.period d.calTgt : Int) * (beginCycle p now d).div =
      onTime p.onRounding d.period d.calTgt * (d.div0 + d.coarse + fineOf p.calDir d.calTgt) := by
  rw [beginCycle_eq]
  dsimp only
  split
  case isTrue hon => rw [hon, Nat.cast_zero, zero_mul, zero_mul]
  case isFalse => rfl

/-- After the on phase DIV stands at its coarse part, in an off phase or Idle. -/
theorem mainFireDivider_beginCycle_div (t : Nat) (hoff : offTime p.onRounding d.period d.calTgt ≠ 0) :
    (mainFireDivider p t (beginCycle p now d)).div = d.div0 + d.coarse := by
  by_cases hon : onTime p.onRounding d.period d.calTgt = 0
  · rw [mainFireDivider_of_idle (by simp [beginCycle_eq, hon])]
    simp [beginCycle_eq, hon]
  · rw [mainFireDivider_of_on (by simp [beginCycle_eq, hon]), if_neg (by simpa [beginCycle_eq] using hoff)]
    simp [beginCycle_eq, restoreDivider]

/-- The sum of DIV over the milliseconds of one cycle. -/
theorem cycle_sum (t : Nat) :
    (onTime p.onRounding d.period d.calTgt : Int) * (beginCycle p now d).div +
      offTime p.onRounding d.period d.calTgt *
        (if offTime p.onRounding d.period d.calTgt = 0 then 0 else (mainFireDivider p t (beginCycle p now d)).div) =
      d.period * (d.div0 + d.coarse) + onTime p.onRounding d.period d.calTgt * fineOf p.calDir d.calTgt := by
  have hoff : (offTime p.onRounding d.period d.calTgt : Int) *
      (if offTime p.onRounding d.period d.calTgt = 0 then 0 else (mainFireDivider p t (beginCycle p now d)).div) =
      offTime p.onRounding d.period d.calTgt * (d.div0 + d.coarse) := by
    split
    case isTrue h => rw [h, Nat.cast_zero, zero_mul, zero_mul]
    case isFalse h => rw [mainFireDivider_beginCycle_div p now d t h]
  have hsum : (d.period : Int) =
      onTime p.onRounding d.period d.calTgt + offTime p.onRounding d.period d.calTgt := by
    rw [← Nat.cast_add, onTime_add_offTime]
  rw [onTime_mul_beginCycle_div, hoff, hsum]
  ring

end Mean

theorem abs_fineOf_le (dir : Direction) (c : Rat) : |(fineOf dir c : Rat)| ≤ 1 := by
  have h : |fineOf dir c| ≤ 1 := by
    rw [Int.abs_eq_natAbs]
    exact_mod_cast fineOf_natAbs_le dir c
  exact_mod_cast h

/-- The on time's share of the period is within `1 / Q` of the fraction asked for. -/
theorem abs_onTime_div_sub_lt (r : OnRounding) {q : Nat} (hq : 0 < q) (c : Rat) :
    |(onTime r q c : Rat) / q - calFrac c| < 1 / q := by
  have hpos : (0 : Rat) < q := Nat.cast_pos.mpr hq
  have h : (onTime r q c : Rat) / q - calFrac c = (onTime r q c - q * calFrac c) / q := by field_simp
  rw [h, abs_div, abs_of_pos hpos, div_lt_div_iff_of_pos_right hpos]
  exact abs_onTime_sub_lt r q c

/-- Settles O46: the sum of DIV over the cycle gives the mean, and what the rounding of the on time leaves is its distance from the
request. -/
theorem meanDividerIsFractional : Obligations.MeanDividerIsFractional := by
  unfold Obligations.MeanDividerIsFractional
  intro p now d hq hcoarse on off d1 d2 mean
  have hpos : (0 : Rat) < d.period := Nat.cast_pos.mpr hq
  have hmean : mean = d.div0 + directionSign p.calDir * calSgn d.calTgt * (calInt d.calTgt + (on : Rat) / d.period) := by
    have hsum : (on * d1.div + off * ((if off = 0 then 0 else d2.div : Int) : Rat) : Rat) =
        d.period * (d.div0 + d.coarse) + on * fineOf p.calDir d.calTgt := by
      exact_mod_cast cycle_sum p now d (now + on)
    show (on * d1.div + off * ((if off = 0 then 0 else d2.div : Int) : Rat) : Rat) / d.period = _
    rw [hsum, hcoarse, coarseOf, fineOf]
    push_cast
    field_simp
    ring
  refine ⟨hmean, ?_⟩
  have hdist : mean - (d.div0 + directionSign p.calDir * d.calTgt) =
      fineOf p.calDir d.calTgt * ((on : Rat) / d.period - calFrac d.calTgt) := by
    rw [hmean, fineOf]
    nth_rw 3 [← calSgn_mul_calInt_add_calFrac d.calTgt]
    push_cast
    ring
  rw [hdist, abs_mul]
  exact (mul_le_of_le_one_left (abs_nonneg _) (abs_fineOf_le ..)).trans_lt (abs_onTime_div_sub_lt _ hq _)

end Sys2Proof.Machine
end

section
/-! PROOF. Engine control (44_engine_control.md): what STOP and its second half, SET_MODE, the locks and JAM_LOAD do (R252 to R254,
R257), and the passes of the RT loop (R259). -/

namespace Sys2Proof.Machine

/-! ### Mode operands (R251, R253) -/

theorem runningMode_of_mode {j : Nat} {arg : ModeArg} {m : Mode}
    (h : arg = .run ∧ m = .run ∨ arg = .monitor ∧ m = .monitor ∨ ∃ n, arg = .jamming n ∧ m = .jamming n ∧ 1 ≤ n ∧ n ≤ j) :
    runningMode j arg = some m := by
  obtain ⟨rfl, rfl⟩ | ⟨rfl, rfl⟩ | ⟨n, rfl, rfl, hn⟩ := h
  · rfl
  · rfl
  · exact if_pos hn

theorem runningMode_of_no_mode {j : Nat} {arg : ModeArg}
    (h : arg = .halted ∨ (∃ tag, arg = .notAMode tag) ∨ ∃ n, arg = .jamming n ∧ ¬(1 ≤ n ∧ n ≤ j)) :
    runningMode j arg = none := by
  obtain rfl | ⟨tag, rfl⟩ | ⟨n, rfl, hn⟩ := h
  · rfl
  · rfl
  · exact if_neg hn

theorem State.start_of_refused {s : State} {arg : ModeArg}
    (h : running s.mode = true ∨ runningMode s.par.jamMax arg = none) : s.start arg = s.answer (.bool false) := by
  unfold State.start
  obtain hr | hm := h
  · exact if_pos hr
  · rw [hm]
    exact ite_self _

/-- A START that is refused waits for no lock. -/
theorem startReady_of_refused {s : State} {arg : ModeArg}
    (h : running s.mode = true ∨ runningMode s.par.jamMax arg = none) : startReady arg s = true := by
  obtain hr | hm := h
  · simp [startReady, hr]
  · simp [startReady, hm]

theorem State.setModeTo_of_accepted {s : State} {arg : ModeArg} {m : Mode} (hr : running s.mode = true)
    (hm : runningMode s.par.jamMax arg = some m) : s.setModeTo arg = ({ s with mode := m } : State).answer (.bool true) := by
  simp [State.setModeTo, hr, hm]

theorem State.setModeTo_of_refused {s : State} {arg : ModeArg}
    (h : running s.mode = false ∨ runningMode s.par.jamMax arg = none) : s.setModeTo arg = s.answer (.bool false) := by
  unfold State.setModeTo
  obtain hr | hm := h
  · exact if_neg (by simp [hr])
  · rw [hm]
    exact ite_self _

theorem exec_setMode_of_refused {s : State} {arg : ModeArg} (hp : permits (.setMode arg) s = true)
    (h : running s.mode = false ∨ runningMode s.par.jamMax arg = none) :
    exec (.setMode arg) s = .next { s with result := .bool false, events := [] } :=
  (exec_setMode s arg).trans (issue_of_body_eq hp rfl (State.setModeTo_of_refused (s := s.opened) h))

/-- Settles O48: each of the operands names no running mode, and START looks at the engine first. -/
theorem modeOperandsAreChecked : Obligations.ModeOperandsAreChecked := by
  unfold Obligations.ModeOperandsAreChecked
  intro s arg
  refine ⟨fun hp h => ?start, fun hp htag => ?setMode⟩
  case start =>
    have href : running s.mode = true ∨ runningMode s.par.jamMax arg = none := h.imp_right runningMode_of_no_mode
    exact (exec_start s arg).trans
      (issue_of_body_eq hp (startReady_of_refused href) (State.start_of_refused (s := s.opened) href))
  case setMode => exact exec_setMode_of_refused hp (.inr (runningMode_of_no_mode (.inr (.inl htag))))

/-- Settles O50: by whether the engine runs and the operand names a running mode. -/
theorem setModeMovesBetweenRunningModes : Obligations.SetModeMovesBetweenRunningModes := by
  unfold Obligations.SetModeMovesBetweenRunningModes
  intro s arg m hp
  refine ⟨fun hr hm => ?moves, fun h => ?refused⟩
  case moves =>
    exact (exec_setMode s arg).trans
      (issue_of_body_eq hp rfl (State.setModeTo_of_accepted (s := s.opened) hr (runningMode_of_mode hm)))
  case refused =>
    refine exec_setMode_of_refused hp ?_
    obtain hs | harg | hn := h
    · exact .inl (by rw [hs]; rfl)
    · exact .inr (runningMode_of_no_mode (.inl harg))
    · exact .inr (runningMode_of_no_mode (.inr (.inr hn)))

/-! ### STOP (R252) -/

theorem stopCheck_of_requested {s : State} (ha : s.agent = .rt) (hq : s.stopReq = true) (hl : s.canLock .div = true) :
    stopCheck s = .next s.opened.finishStop := by
  simp [stopCheck, ha, hq, hl]

/-- Settles O49: the request, RT's half of it, and the two line machines, which a halted engine has disabled. -/
theorem stopHaltsInTwoHalves : Obligations.StopHaltsInTwoHalves := by
  unfold Obligations.StopHaltsInTwoHalves
  refine ⟨fun s hp => ?request, fun s ha hq hl => ?halt⟩
  case request => exact (exec_stop s).trans (issue_ready hp rfl)
  case halt =>
    refine ⟨s.opened.finishStop, stopCheck_of_requested ha hq hl, rfl, ?pop, fun w => ?push⟩
    case pop => exact (exec_lineTxPop _).trans (issue_held rfl rfl)
    case push => exact (exec_lineRxPush _ w).trans (issue_held rfl rfl)

/-! ### Locks (R254) -/

theorem exec_acquire_of_own {s : State} {l : Lock} (hp : permits (.acquire l) s = true) (h : s.holder l = some s.agent) :
    exec (.acquire l) s = .refused (.alreadyHeld l) := by
  simp [exec, execAcquire, hp, h]

theorem exec_release_of_not_own {s : State} {l : Lock} (hp : permits (.release l) s = true) (h : s.holder l ≠ some s.agent) :
    exec (.release l) s = .refused (.notHeld l) := by
  simp [exec, execRelease, hp, h]

/-- Settles O51: by the holder. -/
theorem locksAreExclusive : Obligations.LocksAreExclusive := by
  unfold Obligations.LocksAreExclusive
  intro s l
  refine ⟨fun hp => ⟨fun hfree => ?takes, fun a ha hne => ?waits, exec_acquire_of_own hp⟩,
    fun hp => ⟨fun hown => ?frees, exec_release_of_not_own hp⟩⟩
  case takes =>
    rw [exec_acquire_free (by simp [hfree])]
    exact issue_ready hp (by simp [hfree])
  case waits =>
    rw [exec_acquire_free (by simpa [ha] using hne)]
    exact issue_held hp (by simp [ha])
  case frees =>
    rw [exec_release_held hown]
    exact issue_ready hp rfl

/-! ### JAM_LOAD (R257) -/

/-- A time of the same widths goes from RX to TX whole. -/
theorem jamCopy_eq (R T : Timecode) : jamCopy R T = { T with
    hh := R.hh, mm := R.mm, ss := R.ss, ff := R.ff, df := R.df, clk := R.clk } := by
  simp [jamCopy, Timecode.setTime, Timecode.time]

/-- The test of JAM_LOAD by the fields of the two files (10_state.md R22, R23, R26). -/
theorem jamLegal_iff (R T : Timecode) : JamLegal R T ↔
    R.hh.toNat < 24 ∧ R.mm.toNat < 60 ∧ R.ss.toNat < 60 ∧ R.ff.toNat < framesPerSecond T.fps ∧
      (R.df = false ∨ rateCode T.fps = 1 ∨ rateCode T.fps = 5) ∧
      ¬(R.df = true ∧ R.ss.toNat = 0 ∧ R.ff.toNat < 2 ∧ R.mm.toNat % 10 ≠ 0) := by
  simp only [JamLegal, Time.Legal, Time.Dropped, Timecode.time, allowsDropFrame_iff, and_assoc]

/-- Settles O52: by the test of JAM_LOAD. -/
theorem jamLoadCopiesRxOrRejects : Obligations.JamLoadCopiesRxOrRejects := by
  unfold Obligations.JamLoadCopiesRxOrRejects
  intro s k hp hrx htx
  have he : exec (.jamLoad k) s = .next (s.opened.jamLoad k) :=
    (exec_jamLoad s k).trans (issue_ready hp (by simp [hrx, htx]))
  simp only [← jamLegal_iff, ← jamCopy_eq, he]
  split
  · next hj => exact congrArg Host.Outcome.next (if_pos hj)
  · next hj => exact congrArg Host.Outcome.next (if_neg hj)

/-! ### The RT loop (R259) -/

theorem poll_of_due {s : State} (ha : s.agent = .rt) (h : running s.mode = true ∧ s.stopReq = false ∨ s.rxHeld.isSome = true) :
    poll s = exec .rxPoll s := by
  simp [poll, looping, ha, h]

theorem poll_of_idle {s : State} (ha : s.agent = .rt) (hl : looping s = false) (hn : s.rxHeld = none) :
    poll s = .next s.opened := by
  simp [poll, ha, hl, hn]

theorem refill_of_due {s : State} (ha : s.agent = .rt) (h : refillDue s = true) : refill s = exec .txFrame s := by
  simp [refill, ha, h]

theorem refill_of_not_due {s : State} (ha : s.agent = .rt) (h : refillDue s = false) : refill s = .next s.opened := by
  simp [refill, ha, h]

theorem looping_eq_false {s : State} (h : running s.mode = false ∨ s.stopReq = true) : looping s = false := by
  obtain hr | hq := h
  · simp [looping, hr]
  · simp [looping, hq]

/-- The watermark counts the pending sync word (41_ltc_encoder.md R177). -/
theorem belowWatermark_eq (s : State) : belowWatermark s = decide (s.txq.length + s.syncph.toNat < 7) := by
  cases h : s.syncph <;> simp [belowWatermark, h, Config.txWatermark]

theorem permits_of_rt {s : State} (ha : s.agent = .rt) {i : Instr} (hi : rtMay (opClass i) = true) : permits i s = true := by
  simpa [permits, agentMay, ha] using hi

/-- Settles O54: each act is its test and the operation under it, and below the watermark there is room for the packet. -/
theorem rtLoopPollsAndRefills : Obligations.RtLoopPollsAndRefills := by
  unfold Obligations.RtLoopPollsAndRefills
  intro s
  refine ⟨fun ha => ⟨poll_of_due ha, fun h hn => ?idle, fun hr hq hlow => ?refills, fun h => ?full⟩,
    fun ha => ⟨if_neg ha, if_neg ha⟩⟩
  case idle => exact poll_of_idle ha (looping_eq_false h) hn
  case refills =>
    have hdue : refill s = exec .txFrame s :=
      refill_of_due ha (by simp [refillDue, looping, hr, hq, belowWatermark_eq, hlow])
    have hroom : s.txq.length + 2 + s.syncph.toNat ≤ 8 := by omega
    refine ⟨hdue, hroom, fun hl => ⟨s.opened.txFrame, hdue.trans ?_, rfl, rfl⟩⟩
    exact (exec_txFrame s).trans (issue_ready (permits_of_rt ha rfl) (txFrameReady_of_room hr hq hroom hl))
  case full =>
    refine refill_of_not_due ha ?_
    rw [refillDue, belowWatermark_eq, Bool.and_eq_false_iff, decide_eq_false_iff_not, not_lt]
    exact or_assoc.mpr h |>.imp_left looping_eq_false

end Sys2Proof.Machine
end

section
/-! PROOF. START (44_engine_control.md R251, 70_reset_and_hazards.md R305): the prefill of three frames, and the session that it
begins. -/

namespace Sys2Proof.Machine

/-! ### The prefill (70_reset_and_hazards.md R305) -/

theorem prefill_of_below {s : State} (k : Nat) (hb : s.between = []) (hw : belowWatermark s = true) :
    prefill (k + 1) s = prefill k { s with
      tx := s.tx.next, syncph := !s.syncph, txq := s.txq ++ encPacketOf s.par s.tx s.syncph
      echoq := pushWord s.par.echoqDepth s.echoq s.tx.raw, result := .none } := by
  rw [prefill, if_pos hw, txFrame_alone hb (room_of_belowWatermark hw)]

theorem prefill_of_full {s : State} (k : Nat) (hw : belowWatermark s = false) : prefill k s = s := by
  cases k with
  | zero => rfl
  | succ k => exact if_neg (by simp [hw])

/-- Words pushed one after another are those that find room (20_memory.md R63, R66). -/
theorem foldl_pushWord (d : Nat) : ∀ ws q : List Word, ws.foldl (pushWord d) q = q ++ ws.take (d - q.length)
  | [], q => by simp
  | w :: ws, q => by
    rw [List.foldl_cons, foldl_pushWord d ws]
    by_cases h : q.length < d
    · obtain ⟨m, hm⟩ : ∃ m, d - q.length = m + 1 := ⟨d - q.length - 1, by omega⟩
      rw [pushWord_of_room h, hm, List.length_append, List.length_singleton, show d - (q.length + 1) = m by omega,
        List.take_succ_cons, List.append_assoc, List.singleton_append]
    · rw [pushWord_of_full h, show d - q.length = 0 by omega, List.take_zero, List.take_zero]

theorem streamWords_three_length (p : Params) (S : Timecode) (phase : Bool) :
    (streamWords p 3 S phase).length = if phase = true then 8 else 7 := by
  cases phase <;> simp [streamWords, encPacketOf_length, wordsNeeded]

/-- From an empty TXQ three frames reach the watermark, whichever form the first packet has. -/
theorem prefill_of_empty {s : State} (hb : s.between = []) (hq : s.txq = []) : prefill Config.txWatermark s = { s with
    tx := Timecode.stepN 3 s.tx, syncph := !s.syncph, txq := streamWords s.par 3 s.tx s.syncph
    echoq := s.echoq ++ [s.tx.raw, s.tx.next.raw, s.tx.next.next.raw].take (s.par.echoqDepth - s.echoq.length)
    result := .none } := by
  have hlen (S : Timecode) (phase : Bool) : (encPacketOf s.par S phase).length = 2 + phase.toNat := by
    rw [encPacketOf_length, wordsNeeded_eq]
  have hphase : s.syncph.toNat + (!s.syncph).toNat = 1 := by cases s.syncph <;> rfl
  refine (prefill_of_below 6 hb ?first).trans ((prefill_of_below 5 (by exact hb) ?second).trans
    ((prefill_of_below 4 (by exact hb) ?third).trans ((prefill_of_full 4 ?full).trans ?state)))
  case state =>
    rw [← foldl_pushWord]
    simp [streamWords, Timecode.stepN, hq]
  all_goals
    simp only [belowWatermark_eq, decide_eq_true_eq, decide_eq_false_iff_not, List.length_append, hlen, hq, List.length_nil,
      Bool.not_not]
    omega

/-! ### The session (44_engine_control.md R251) -/

theorem State.start_of_accepted {s : State} {arg : ModeArg} {m : Mode} (hs : running s.mode = false)
    (hm : runningMode s.par.jamMax arg = some m) : s.start arg = s.startIn m := by
  simp [State.start, hs, hm]

/-- The request in force, in range, begins its cycle in an engine that has just started. -/
theorem State.microAdjust_of_started {s : State} (hc : CalInRange s) (hr : running s.mode = true) (hi : s.dv.dstate = .idle) :
    s.microAdjust (.finite s.dv.calTgt) s.dv.period =
      s.setDv (beginCycle s.par s.now { s.dv with coarse := coarseOf s.par.calDir s.dv.calTgt }) := by
  obtain ⟨⟨hlo, hhi⟩, -, hp, -⟩ := hc
  rw [State.microAdjust_of_running hlo hhi (by exact_mod_cast hp) hr, adjustDivider_of_idle hi, Int.toNat_natCast]

/-- Everything START does that begins a session. -/
theorem State.startIn_eq {s : State} {m : Mode} (hc : CalInRange s) (hr : running m = true) : s.startIn m = { s with
    result := .bool true, mode := m, stopReq := false, st := s.st.cleared, syncph := !s.par.syncphReset
    txq := streamWords s.par 3 s.tx s.par.syncphReset, rxq := [], tx := Timecode.stepN 3 s.tx, lineOut := .driven
    echoq := s.echoq ++ [s.tx.raw, s.tx.next.raw, s.tx.next.next.raw].take (s.par.echoqDepth - s.echoq.length)
    dv := beginCycle s.par s.now { s.dv with
      div0 := nominalDivider s.par.div0 s.tx.fps, coarse := coarseOf s.par.calDir s.dv.calTgt } } := by
  unfold State.startIn
  rw [prefill_of_empty (s := { s.clearSession with between := [] }) rfl rfl]
  dsimp only
  rw [State.microAdjust_of_started (by exact hc) hr rfl]
  rw [← beginCycle_of_phase s.par s.now { s.dv with
      div0 := nominalDivider s.par.div0 s.tx.fps, coarse := coarseOf s.par.calDir s.dv.calTgt }
    0 (nominalDivider s.par.div0 s.tx.fps) .idle none none]
  rfl

/-- Settles O47: the three frames of the prefill, and the cycle of the request in force. -/
theorem startBeginsSession : Obligations.StartBeginsSession := by
  unfold Obligations.StartBeginsSession
  intro s arg m hp hs htx hdv hc harg
  have hm := runningMode_of_mode harg
  have hstopped : running s.mode = false := by rw [hs]; rfl
  refine ⟨_, (exec_start s arg).trans (issue_of_body_eq hp (by simp [startReady, htx, hdv])
    ((State.start_of_accepted (s := s.opened) hstopped hm).trans
      (State.startIn_eq (s := s.opened) hc (runningMode_some hm).2))), rfl, ?_⟩
  exact streamWords_three_length s.par s.tx s.par.syncphReset

end Sys2Proof.Machine
end

section
/-! PROOF. What starts and stops the engine (44_engine_control.md R251 to R253, 60_exceptions.md R273): START, UNDERFLOW and RT's
half of STOP. -/

namespace Sys2Proof.Machine

/-- The engine runs or stands as before, and neither STOPREQ nor the sticky flag has been cleared. -/
structure EngineGoesOn (s s' : State) : Prop where
  runs : running s'.mode = running s.mode
  stopReq : s.stopReq = true → s'.stopReq = true
  underflow : s.st.underflow = true → s'.st.underflow = true

/-- A running engine has taken UNDERFLOW whole (60_exceptions.md R273). -/
structure UnderflowTaken (s s' : State) : Prop where
  ran : running s.mode = true
  mode : s'.mode = .halted
  stopReq : s'.stopReq = true
  underflow : s'.st.underflow = true
  lineOut : s'.lineOut = .low
  raised : Event.underflow ∈ s'.events

variable {s s' : State}

theorem EngineGoesOn.of_kept (hm : s'.mode = s.mode) (hq : s'.stopReq = s.stopReq) (hu : s'.st.underflow = s.st.underflow) :
    EngineGoesOn s s' := ⟨congrArg running hm, hq.trans, hu.trans⟩

/-! ### Operations -/

/-- What LINE steps can do to the engine, `LineFrame.engine`, of any two states whose engines they take from one to the other. -/
theorem goesOn_or_underflow
    (h : (s'.mode = s.mode ∧ s'.stopReq = s.stopReq ∧ s'.lineOut = s.lineOut ∧ s'.st.underflow = s.st.underflow) ∨
      (running s.mode = true ∧ s'.mode = .halted ∧ s'.stopReq = true ∧ s'.lineOut = .low ∧ s'.st.underflow = true ∧
        Event.underflow ∈ s'.events)) : EngineGoesOn s s' ∨ UnderflowTaken s s' := by
  obtain ⟨hm, hq, -, hu⟩ | ⟨hr, hm, hq, ho, hu, he⟩ := h
  · exact .inl (.of_kept hm hq hu)
  · exact .inr ⟨hr, hm, hq, hu, ho, he⟩

/-- A pop, and the pops that fall into a TX_FRAME with room for its packet, leave the engine or take UNDERFLOW. -/
theorem exec_linePops_engine {i : Instr} (hi : i = .lineTxPop ∨ i = .txFrame) (h : exec i s = .next s') :
    EngineGoesOn s s' ∨ UnderflowTaken s s' := by
  obtain rfl | rfl := hi
  · obtain ⟨-, ⟨hr, rfl⟩ | ⟨-, rfl⟩⟩ := issue_next (exec_lineTxPop s ▸ h)
    · exact goesOn_or_underflow (lineTxPop_frame (s := s.opened) hr).engine
    · exact .inl (.of_kept rfl rfl rfl)
  · obtain ⟨-, ⟨hr, rfl⟩ | ⟨-, rfl⟩⟩ := issue_next (exec_txFrame s ▸ h)
    · obtain ⟨n, -, f, -⟩ := pushPacket_frame (encPacketOf s.par s.tx s.syncph) s.between (s.opened.pushEcho s.tx.raw)
        (by rw [encPacketOf_length]; exact room_of_txFrameReady hr)
      exact goesOn_or_underflow f.engine
    · exact .inl (.of_kept rfl rfl rfl)

theorem State.setModeTo_goesOn (s : State) (arg : ModeArg) : EngineGoesOn s (s.setModeTo arg) := by
  unfold State.setModeTo
  split
  · next hr =>
    split
    · next m hm => exact ⟨(runningMode_some hm).2.trans hr.symm, id, id⟩
    · exact .of_kept rfl rfl rfl
  · exact .of_kept rfl rfl rfl

/-- Everything an operation can do to the engine. -/
theorem exec_engine {i : Instr} (h : exec i s = .next s') : EngineGoesOn s s' ∨
    (i = .lineTxPop ∨ i = .txFrame) ∧ UnderflowTaken s s' ∨ IsStart i ∧ running s.mode = false := by
  by_cases hpop : i = .lineTxPop ∨ i = .txFrame
  · exact (exec_linePops_engine hpop h).imp_right fun hu => .inl ⟨hpop, hu⟩
  by_cases hstart : IsStart i
  · obtain ⟨arg, rfl⟩ := hstart
    cases hr : running s.mode with
    | false => exact .inr (.inr ⟨⟨arg, rfl⟩, rfl⟩)
    | true =>
      obtain ⟨-, ⟨-, rfl⟩ | ⟨-, rfl⟩⟩ := issue_next (exec_start s arg ▸ h)
      · rw [State.start_of_refused (s := s.opened) (.inl hr)]
        exact .inl (.of_kept rfl rfl rfl)
      · exact .inl (.of_kept rfl rfl rfl)
  by_cases hmode : ∃ arg, i = .setMode arg
  · obtain ⟨arg, rfl⟩ := hmode
    obtain ⟨-, ⟨-, rfl⟩ | ⟨-, rfl⟩⟩ := issue_next (exec_setMode s arg ▸ h)
    · obtain ⟨hm, hq, hu⟩ := s.opened.setModeTo_goesOn arg
      exact .inl ⟨hm, hq, hu⟩
    · exact .inl (.of_kept rfl rfl rfl)
  by_cases hstop : i = .stop
  · subst hstop
    obtain ⟨-, ⟨-, rfl⟩ | ⟨-, rfl⟩⟩ := issue_next (exec_stop s ▸ h)
    · exact .inl ⟨rfl, fun _ => rfl, id⟩
    · exact .inl (.of_kept rfl rfl rfl)
  obtain ⟨-, wmode, wstop, -, wunder, -⟩ := writersOfEachRegister.1 i s s' h
  refine .inl (.of_kept ?mode ?stopReq ?underflow) <;> by_contra hne
  case mode => exact (wmode hne).elim hstart (·.elim hmode hpop)
  case stopReq => exact (wstop hne).elim hstart (·.elim hstop hpop)
  case underflow => exact (wunder hne).elim hstart hpop

/-! ### Acts at the ports -/

/-- Everything that an act which is no operation can do to the engine. -/
theorem perform_engine {act : Act} (ha : ∀ form bytes, act ≠ .op form bytes) (h : perform act s = .next s') :
    EngineGoesOn s s' ∨ act = .refill ∧ UnderflowTaken s s' ∨
      act = .stopCheck ∧ s.stopReq = true ∧ s' = s.opened.finishStop ∨
      act = .rebuild ∧ running s.mode = false ∧ running s'.mode = false := by
  have counted {t : File} {n : Nat} (hc : act = .stepCount t n ∨ act = .prevFrameCount t n) : EngineGoesOn s s' := by
    obtain ⟨v, e⟩ := perform_counted_writes hc h
    rw [e]
    exact .of_kept (by simp) (by simp) (by simp)
  cases act with
  | op form bytes => exact absurd rfl (ha form bytes)
  | echoPop =>
    obtain ⟨-, ⟨w, q, -, rfl⟩ | ⟨-, rfl⟩⟩ := echoPop_next h <;> exact .inl (.of_kept rfl rfl rfl)
  | poll =>
    obtain ⟨-, he | rfl⟩ := poll_next h
    · obtain hk | ⟨hi | hi, -⟩ | ⟨⟨arg, hi⟩, -⟩ := exec_engine he
      · exact .inl hk
      all_goals cases hi
    · exact .inl (.of_kept rfl rfl rfl)
  | refill =>
    obtain ⟨-, he | rfl⟩ := refill_next h
    · exact (exec_linePops_engine (.inr rfl) he).imp_right fun hu => .inl ⟨rfl, hu⟩
    · exact .inl (.of_kept rfl rfl rfl)
  | stopCheck =>
    obtain ⟨-, ⟨hq, ⟨-, rfl⟩ | ⟨-, rfl⟩⟩ | ⟨-, rfl⟩⟩ := stopCheck_next h
    · exact .inr (.inr (.inl ⟨rfl, hq, rfl⟩))
    all_goals exact .inl (.of_kept rfl rfl rfl)
  | stepCount t n => exact .inl (counted (.inl rfl))
  | prevFrameCount t n => exact .inl (counted (.inr rfl))
  | rebuild =>
    obtain ⟨-, hr, rfl⟩ := rebuild_next h
    exact .inr (.inr (.inr ⟨rfl, hr, rfl⟩))

/-- Settles O59: by what an operation, and an act at the ports, can do to the engine. -/
theorem onlyStartLeavesHalted : Obligations.OnlyStartLeavesHalted := by
  unfold Obligations.OnlyStartLeavesHalted
  refine ⟨fun i s s' h => ?operation, fun act s s' ha h => ?act⟩
  case operation =>
    obtain ⟨hrun, hq, hu⟩ | ⟨hi, hrun, hm, hq, hu, ho, he⟩ | ⟨hi, hrun⟩ := exec_engine h
    · simp_all
    · simp [hi, hrun, hq, hu, ho, he]
    · simp [hi, hrun]
  case act =>
    obtain ⟨hrun, hq, hu⟩ | ⟨rfl, hrun, hm, hq, hu, ho, -⟩ | ⟨rfl, hq, rfl⟩ | ⟨rfl, hs, hs'⟩ := perform_engine ha h
    · simp_all
    · simp [hrun, hq, hu, ho]
    · exact ⟨fun _ => rfl, fun _ _ => ⟨rfl, hq, .inl ⟨rfl, hq, rfl, rfl, rfl⟩⟩, fun _ h => absurd (hq.symm.trans h) nofun,
        fun hu h => absurd (hu.symm.trans h) nofun⟩
    · simp [hs, hs']

end Sys2Proof.Machine
end

section
/-! PROOF. Exceptions (60_exceptions.md): who may issue what (R289 to R291), the operands that CAL_RANGE refuses (R282), and
UNDERFLOW with the cancel after it (R273). -/

namespace Sys2Proof.Machine

/-! ### The operations of each class (R291)

One line per class of `opClass`, so that a row of the table is read off the classes of its agent. -/

section Classes

variable (i : Instr)

theorem opClass_eq_snapshot_iff : opClass i = .snapshot ↔ ∃ t, i = .toRaw t ∨ i = .toAscii t ∨ i = .readRawStable t := by
  cases i <;> simp [opClass]

theorem opClass_eq_setting_iff : opClass i = .setting ↔
    (∃ t fps df, i = .setFpsDf t fps df) ∨ (∃ t hh mm ss ff, i = .loadTc t hh mm ss ff) ∨ (∃ t str, i = .fromAscii t str) ∨
      (∃ t n1 n2 n3 n4 n5 n6 n7 n8, i = .setUb t n1 n2 n3 n4 n5 n6 n7 n8) ∨
      ∃ t cf clk bgf0 bgf2, i = .setFlags t cf clk bgf0 bgf2 := by
  cases i <;> simp [opClass]

theorem opClass_eq_stepping_iff : opClass i = .stepping ↔ ∃ t, i = .nextFrame t ∨ i = .prevFrame t := by
  cases i <;> simp [opClass]

theorem opClass_eq_cancel_iff : opClass i = .cancel ↔ i = .cancelDither := by cases i <;> simp [opClass]

theorem opClass_eq_timerFire_iff : opClass i = .timerFire ↔ i = .mainFire ∨ i = .safeFire := by cases i <;> simp [opClass]

theorem opClass_eq_loadCal_iff : opClass i = .loadCal ↔ ∃ c p, i = .loadCal c p := by cases i <;> simp [opClass]

theorem opClass_eq_start_iff : opClass i = .start ↔ ∃ m, i = .start m := by cases i <;> simp [opClass]

theorem opClass_eq_stop_iff : opClass i = .stop ↔ i = .stop := by cases i <;> simp [opClass]

theorem opClass_eq_setMode_iff : opClass i = .setMode ↔ ∃ m, i = .setMode m := by cases i <;> simp [opClass]

theorem opClass_eq_acquire_iff (l : Lock) : opClass i = .acquire l ↔ i = .acquire l := by cases i <;> simp [opClass]

theorem opClass_eq_release_iff (l : Lock) : opClass i = .release l ↔ i = .release l := by cases i <;> simp [opClass]

theorem opClass_eq_linePop_iff : opClass i = .linePop ↔ i = .lineTxPop := by cases i <;> simp [opClass]

theorem opClass_eq_linePush_iff : opClass i = .linePush ↔ ∃ w, i = .lineRxPush w := by cases i <;> simp [opClass]

theorem opClass_eq_format_iff : opClass i = .format ↔ i.form ≠ .op := by cases i <;> simp [opClass, Instr.form]

end Classes

/-! ### The classes of each agent (R291) -/

theorem timerMay_iff (underflow : Bool) (c : OpClass) :
    timerMay underflow c = true ↔ c = .timerFire ∨ c = .cancel ∧ underflow = true := by
  cases c <;> simp [timerMay]

theorem rtMay_eq_false_iff (c : OpClass) :
    rtMay c = false ↔ c = .linePop ∨ c = .linePush ∨ c = .timerFire ∨ c = .loadCal ∨ c = .format := by
  cases c <;> simp [rtMay]

theorem uiMay_iff (c : OpClass) : uiMay c = true ↔
    c = .snapshot ∨ (∃ l, l ≠ .div ∧ (c = .acquire l ∨ c = .release l)) ∨ c = .setting ∨ c = .setMode ∨ c = .stop := by
  cases c <;> simp [uiMay]

theorem hostMay_iff (stopped : Bool) (c : OpClass) : hostMay stopped c = true ↔
    c = .stop ∨ c = .loadCal ∨ stopped = true ∧ (c = .snapshot ∨ c = .stepping ∨ c = .setting ∨ c = .start) := by
  cases c <;> simp [hostMay]

/-! ### Who may issue what (R291) -/

section Rows

variable {i : Instr} {s : State}

/-- Every operation asks for its issuer's permission first, the two that are no plain use of `issue` too. -/
theorem exec_of_not_permitted (hf : i.form = .op) (hp : permits i s = false) :
    exec i s = .refused (.notPermitted s.agent) := by
  cases i with
  | acquire l => simp [exec, execAcquire, issue_refused hp, hp]
  | release l => simp [exec, execRelease, issue_refused hp, hp]
  | ltcW0 | ltcW1 | p3X0 | p3X1 | p3X2 | sync16 | raw32 => cases hf
  | _ =>
    simp only [exec_setFpsDf, exec_loadTc, exec_nextFrame, exec_prevFrame, exec_toRaw, exec_toAscii, exec_fromAscii, exec_setUb,
      exec_setFlags, exec_readRawStable, exec_encPacket, exec_txFrame, exec_decPacket, exec_decPacket3, exec_decFrame80,
      exec_rxPoll, exec_microAdjust, exec_mainFire, exec_safeFire, exec_cancelDither, exec_loadCal, exec_start, exec_stop,
      exec_setMode, exec_jamLoad, exec_lineTxPop, exec_lineRxPush, issue_refused hp]

theorem permits_lineTx_iff (ha : s.agent = .lineTx) : permits i s = true ↔ i = .lineTxPop := by
  simp only [permits, agentMay, ha, lineTxMay, decide_eq_true_eq, opClass_eq_linePop_iff]

theorem permits_lineRx_iff (ha : s.agent = .lineRx) : permits i s = true ↔ ∃ w, i = .lineRxPush w := by
  simp only [permits, agentMay, ha, lineRxMay, decide_eq_true_eq, opClass_eq_linePush_iff]

theorem permits_timer_iff (ha : s.agent = .timer) : permits i s = true ↔
    i = .mainFire ∨ i = .safeFire ∨ (i = .cancelDither ∧ s.st.underflow = true) := by
  simp only [permits, agentMay, ha, timerMay_iff, opClass_eq_timerFire_iff, opClass_eq_cancel_iff, or_assoc]

theorem permits_rt_eq_false_iff (ha : s.agent = .rt) (hf : i.form = .op) : permits i s = false ↔
    i = .lineTxPop ∨ (∃ w, i = .lineRxPush w) ∨ i = .mainFire ∨ i = .safeFire ∨ ∃ c p, i = .loadCal c p := by
  simp only [permits, agentMay, ha, rtMay_eq_false_iff, opClass_eq_linePop_iff, opClass_eq_linePush_iff,
    opClass_eq_timerFire_iff, opClass_eq_loadCal_iff, opClass_eq_format_iff, hf, ne_eq, not_true_eq_false, or_false, or_assoc]

theorem permits_ui_iff (ha : s.agent = .ui) : permits i s = true ↔
    (∃ t, i = .toRaw t ∨ i = .toAscii t ∨ i = .readRawStable t) ∨
    (∃ l, l ≠ .div ∧ (i = .acquire l ∨ i = .release l)) ∨
    opClass i = .setting ∨ (∃ m, i = .setMode m) ∨ i = .stop := by
  simp only [permits, agentMay, ha, uiMay_iff, opClass_eq_snapshot_iff, opClass_eq_acquire_iff, opClass_eq_release_iff,
    opClass_eq_setMode_iff, opClass_eq_stop_iff]

theorem permits_host_iff (ha : s.agent = .host) : permits i s = true ↔ i = .stop ∨ (∃ c p, i = .loadCal c p) ∨
    (running s.mode = false ∧
      ((∃ t, i = .toRaw t ∨ i = .toAscii t ∨ i = .readRawStable t ∨ i = .nextFrame t ∨ i = .prevFrame t) ∨
        opClass i = .setting ∨ ∃ m, i = .start m)) := by
  simp only [permits, agentMay, ha, hostMay_iff, Bool.not_eq_true', opClass_eq_snapshot_iff, opClass_eq_stepping_iff,
    opClass_eq_loadCal_iff, opClass_eq_start_iff, opClass_eq_stop_iff, exists_or, or_assoc]

end Rows

/-- Settles O9: the refusal of `issue`, and the row of each agent. -/
theorem agentsAreRefused : Obligations.AgentsAreRefused := by
  unfold Obligations.AgentsAreRefused
  refine ⟨fun i s => exec_of_not_permitted, fun i s => permits_lineTx_iff, fun i s => permits_lineRx_iff,
    fun i s => permits_timer_iff, fun i s => permits_rt_eq_false_iff, fun i s ha => ?ui, fun i s ha => ?host⟩
  case ui => simpa only [opClass_eq_setting_iff, or_assoc] using permits_ui_iff (i := i) ha
  case host => simpa only [opClass_eq_setting_iff, or_assoc] using permits_host_iff (i := i) ha

/-! ### CAL_RANGE (R282) -/

/-- An operand that is out of range is not accepted, since those accepted are in range. -/
theorem acceptCal_of_out_of_range {p : Params} {c : CalArg} {P : Int}
    (h : (∀ x, c = .finite x → x < -p.calMax ∨ p.calMax < x) ∨ P ≤ 0) : acceptCal p c P = none := by
  rcases ha : acceptCal p c P with - | ⟨x, q⟩
  · rfl
  · obtain ⟨hx, ⟨hlo, hhi⟩, hq, hP⟩ := acceptCal_some ha
    obtain hc | hP' := h
    · exact ((hc x hx).elim (not_lt.mpr hlo) (not_lt.mpr hhi)).elim
    · omega

theorem State.microAdjust_of_not_accepted {s : State} {c : CalArg} {P : Int} (h : acceptCal s.par c P = none) :
    s.microAdjust c P = s.raise .calRange := by
  simp only [State.microAdjust, h]

theorem State.loadCal_of_not_accepted {s : State} {c : CalArg} {P : Int} (h : acceptCal s.par c P = none) :
    s.loadCal c P = s.raise .calRange := by
  simp only [State.loadCal, h]

/-- Settles O42: a refused operand waits for no lock, and the bodies only raise the event. -/
theorem calRangeIsRefused : Obligations.CalRangeIsRefused := by
  unfold Obligations.CalRangeIsRefused
  intro s c P
  refine ⟨fun hp h => ?microAdjust, fun hp h => ?loadCal⟩ <;> have hn := acceptCal_of_out_of_range h
  case microAdjust =>
    exact (exec_microAdjust s c P).trans
      (issue_of_body_eq hp (by simp [microAdjustReady, hn]) (State.microAdjust_of_not_accepted (s := s.opened) hn))
  case loadCal =>
    exact (exec_loadCal s c P).trans
      (issue_of_body_eq hp (by simp [loadCalReady, hn]) (State.loadCal_of_not_accepted (s := s.opened) hn))

/-! ### UNDERFLOW and the cancel after it (R273) -/

/-- After an underflow TIMER may cancel as RT always may (R291). -/
theorem permits_cancelDither_of_underflow {s : State} (ha : s.agent = .timer ∨ s.agent = .rt) (hu : s.st.underflow = true) :
    permits .cancelDither s = true := by
  obtain ha | ha := ha
  · exact (permits_timer_iff ha).mpr (.inr (.inr ⟨rfl, hu⟩))
  · exact permits_of_rt ha rfl

theorem exec_lineTxPop_of_halted {s : State} (ha : s.agent = .lineTx) (hm : s.mode = .halted) :
    exec .lineTxPop s = .next s.heldUp :=
  (exec_lineTxPop s).trans (issue_held ((permits_lineTx_iff ha).mpr rfl) (by simp [lineEnabled, running, hm]))

theorem exec_lineRxPush_of_halted {s : State} (ha : s.agent = .lineRx) (hm : s.mode = .halted) (w : Word) :
    exec (.lineRxPush w) s = .next s.heldUp :=
  (exec_lineRxPush s w).trans (issue_held ((permits_lineRx_iff ha).mpr ⟨w, rfl⟩) (by simp [lineEnabled, running, hm]))

/-- Settles O32: the pop enters UNDERFLOW, whose halted engine and flag the three operations after it find. -/
theorem underflowEntryThenCancel : Obligations.UnderflowEntryThenCancel := by
  unfold Obligations.UnderflowEntryThenCancel
  intro s a htx hr hq hlock ha
  have hentry := (lineTxPopOrUnderflow s ((permits_lineTx_iff htx).mpr rfl)).2.1 hr hq
  refine ⟨_, hentry, ?cancel, exec_lineTxPop_of_halted htx rfl, exec_lineRxPush_of_halted rfl rfl⟩
  case cancel =>
    exact (exec_cancelDither _).trans
      (issue_ready (permits_cancelDither_of_underflow ha rfl) (by simpa [State.canLock, State.holder] using hlock))

end Sys2Proof.Machine
end

section
/-! PROOF. Reset (70_reset_and_hazards.md): HOST's rebuild of the stopped block (R300, R301). -/

namespace Sys2Proof.Machine

/-- Of the reset values only SYNCPH, DIV and DIV0 come from the parameters (10_state.md R45). -/
theorem State.resetWith_eq_reset (p : Params) :
    State.resetWith p = { State.reset with
      syncph := p.syncphReset, dv := { State.reset.dv with div := p.div0.at30, div0 := p.div0.at30 },
      result := .none, events := [], par := p } :=
  rfl

theorem rebuild_of_host_of_stopped {s : State} (ha : s.agent = .host) (hr : running s.mode = false) :
    rebuild s = .next { State.resetWith s.par with
      now := s.now, lineWords := s.lineWords, agent := s.agent, draws := s.draws, between := s.between, tears := s.tears,
      newTx := s.newTx, newRx := s.newRx, port := s.port, sched := s.sched } :=
  if_pos ⟨ha, hr⟩

theorem rebuild_refused {s : State} (h : s.agent ≠ .host ∨ running s.mode = true) :
    rebuild s = .refused (.notPermitted s.agent) :=
  if_neg fun ⟨ha, hr⟩ => h.elim (· ha) (by simp [hr])

/-- Settles O55: what HOST builds of the stopped block is the reset state at the block's own parameters. -/
theorem rebuildRestoresReset : Obligations.RebuildRestoresReset := by
  unfold Obligations.RebuildRestoresReset
  intro s
  refine ⟨fun ha hr => ?host, fun h => ?refused⟩
  case host => exact (rebuild_of_host_of_stopped ha hr).trans (by simp only [State.resetWith_eq_reset])
  case refused => exact rebuild_refused h

end Sys2Proof.Machine
end
